-- ==== Sys2Proof/Word.lean ====
section
/-! DEFINITION. The word types of the block, by their widths in 00_scope.md R7 and 30_encoding.md R37, R38, R46. -/

namespace Sys2Proof

/-- A byte, 8 bits (R113). -/
abbrev Byte := BitVec 8

/-- The command word `W_CMD`, 264 bits (R7, R37). -/
abbrev CmdWord := BitVec 264

/-- The response word `W_RSP`, 131 bits (R7, R46). -/
abbrev RspWord := BitVec 131

/-- The opcode field `op`, 2 bits (R38). -/
abbrev OpField := BitVec 2

/-- The length field `len`, 6 bits, counting bytes (R38, R42). -/
abbrev LenField := BitVec 6

/-- The payload field `data`, 256 bits, 32 byte lanes (R38, R43). -/
abbrev Payload := BitVec 256

/-- The width of the registers `R` and `S` and of a tag, 128 bits (R7, R11, R12, R46). -/
abbrev Half := BitVec 128

/-- The width of the accumulator, `W_ACC` = 130 bits (R7, R13). -/
abbrev Residue := BitVec 130

end Sys2Proof
end

