-- ==== Sys2Proof/Config.lean ====
section
/-! DEFINITION. The constants of the block, none of them configurable (00_scope.md R6), and its open parameters,
the latencies (R8, R109). There is no free value: nothing is unspecified at the transaction level
(93_implementation_defined.md section 1). -/

namespace Sys2Proof.Config

/-- `KEY_BYTES`, the exact length of a key (R6). -/
def keyBytes : Nat := 32

/-- `HALF_BYTES`, the length of each key half (R6). -/
def halfBytes : Nat := 16

/-- `BLOCK_BYTES`, the greatest length of a chunk (R6). -/
def blockBytes : Nat := 16

/-- `TAG_BYTES`, the exact length of a tag (R6). -/
def tagBytes : Nat := 16

/-- `P = 2^130 - 5`, the modulus of the per-chunk reduction (R6). -/
def prime : Nat := 2 ^ 130 - 5

/-- `2^128`, the modulus of the final combination step (R6). -/
def tagModulus : Nat := 2 ^ 128

/-- `CLAMP_MASK` (R6, R56). -/
def clampMask : Half := 0x0ffffffc0ffffffc0ffffffc0fffffff#128

/-- The open parameters `LAT_KEY`, `LAT_START`, `LAT_BLOCK`, `LAT_FINAL`, `LAT_ERR` (R8, R109): clock cycles from the
acceptance of a command to the first edge at which its response is presented. The port machine takes them as an
argument; no rule of the functional model reads them. -/
structure Latencies where
  key   : Nat
  start : Nat
  block : Nat
  final : Nat
  err   : Nat
  deriving DecidableEq, Repr

/-- Each latency is a natural number of at least 1 (R8, R109). -/
abbrev Latencies.Positive (L : Latencies) : Prop :=
  1 ≤ L.key ∧ 1 ≤ L.start ∧ 1 ≤ L.block ∧ 1 ≤ L.final ∧ 1 ≤ L.err

end Sys2Proof.Config
end

