-- ==== Sys2Proof/Machine/Operands.lean ====
section
/-! DEFINITION. The byte_packer and clamp_mask units (40_datapath_units.md R50 to R58) and the assembly of a command's
payload (30_encoding.md R43): pure functions, no state (R2). -/

namespace Sys2Proof.Machine

/-- The slice `v[hi:lo] = floor(v / 2^lo) mod 2^(hi-lo+1)` of a natural (R113). -/
def slice (v hi lo : Nat) : Nat := v / 2 ^ lo % 2 ^ (hi - lo + 1)

/-- `le_int(b)`: the little-endian value of a byte string (R50). -/
def leInt : List Byte → Nat
  | [] => 0
  | b :: bs => b.toNat + 256 * leInt bs

/-- `lane(data, i)`: byte lane `i` of a payload, bits `8i+7 : 8i` (R51). -/
def lane (data : Payload) (i : Nat) : Byte := data.extractLsb' (8 * i) 8

/-- The byte string in lanes 0 to `n-1` of a payload (R51). -/
def lanes (data : Payload) (n : Nat) : List Byte := (List.range n).map (lane data)

/-- `chunk_int(data, n) = data[8n-1:0]`: the value of a chunk; higher lanes do not enter (R52). -/
def chunkInt (data : Payload) (n : Nat) : Nat := data.toNat % 2 ^ (8 * n)

/-- `block_value(data, n)`: the chunk with its sentinel bit (R53). -/
def blockValue (data : Payload) (n : Nat) : Nat := chunkInt data n + 2 ^ (8 * n)

/-- `le_bytes16(v)`: the 16-byte little-endian serialisation (R54). -/
def leBytes16 (v : Nat) : List Byte :=
  (List.range 16).map fun i => BitVec.ofNat 8 (v / 256 ^ i)

/-- `clamp(x) = x & CLAMP_MASK` (R56). -/
def clamp (x : Half) : Half := x &&& Config.clampMask

/-- The first key half `le_int(key[0:16]) = data[127:0]` (R43, R64). -/
def keyLow (data : Payload) : Half := data.extractLsb' 0 128

/-- The second key half `le_int(key[16:32]) = data[255:128]` (R43, R64). -/
def keyHigh (data : Payload) : Half := data.extractLsb' 128 128

end Sys2Proof.Machine
end

