-- ==== Sys2Proof/Syntax.lean ====
section
/-! DEFINITION. The commands of the block, one constructor per row of spec/opcode_table.json (30_encoding.md R41). -/

namespace Sys2Proof

/-- A command. Each carries the two fields every command word has (R38): its declared length and its payload, whatever
they hold, because a word with an illegal length is not undefined but answers a status (R44). -/
inductive Instr where
  /-- `START`, `op = 0b00`, format N (R67). -/
  | start (len : LenField) (data : Payload)
  /-- `KEY`, `op = 0b01`, format K (R64). -/
  | key (len : LenField) (data : Payload)
  /-- `BLOCK`, `op = 0b10`, format B (R68). -/
  | block (len : LenField) (data : Payload)
  /-- `FINAL`, `op = 0b11`, format N (R71). -/
  | final (len : LenField) (data : Payload)
  deriving DecidableEq, Repr

/-- The `len` field of a command (R38). -/
def Instr.len : Instr → LenField
  | .start len _ => len
  | .key len _ => len
  | .block len _ => len
  | .final len _ => len

/-- The `data` field of a command (R38). -/
def Instr.data : Instr → Payload
  | .start _ data => data
  | .key _ data => data
  | .block _ data => data
  | .final _ data => data

end Sys2Proof
end

