-- ==== Sys2Proof/Decode.lean ====
section
/-! DEFINITION. Decoding of command words, total on 264-bit words (30_encoding.md R37, R38, R40, R41), and the encoder
from the same table. -/

namespace Sys2Proof

/-- `op = W[263:262]` (R38). -/
def opField (w : CmdWord) : OpField := w.extractLsb' 262 2

/-- `len = W[261:256]` (R38). -/
def lenField (w : CmdWord) : LenField := w.extractLsb' 256 6

/-- `data = W[255:0]` (R38). -/
def dataField (w : CmdWord) : Payload := w.extractLsb' 0 256

/-- The dispatch of R40 by the opcode map of R41. All four values of `op` are assigned (R45), so no word is rejected. -/
def decode (w : CmdWord) : Instr :=
  if opField w = 0b00#2 then .start (lenField w) (dataField w)
  else if opField w = 0b01#2 then .key (lenField w) (dataField w)
  else if opField w = 0b10#2 then .block (lenField w) (dataField w)
  else .final (lenField w) (dataField w)

/-- Why a list of bytes is no command word. -/
inductive DecodeError where
  /-- A command word is exactly 33 bytes; there are no shorter or longer commands (R37). -/
  | notOneCommandWord (bytes : Nat)
  deriving DecidableEq, Repr

/-- The first `n` bytes of a number, byte `i` from bits `8i+7 : 8i`. -/
def bytesOfNat : Nat → Nat → List Byte
  | 0, _ => []
  | n + 1, v => BitVec.ofNat 8 v :: bytesOfNat n (v / 256)

/-- A command word given byte by byte, lane 0 first and the header last: 33 bytes, byte `i` in bits `8i+7 : 8i`, the
numbering a host on a narrower bus must keep (R28, R37, R38). The byte view is the model's: DESIGN CHOICE, log entry 3. -/
def decodeBytes (bs : List Byte) : Except DecodeError Instr :=
  if bs.length = 33 then .ok (decode (BitVec.ofNat 264 (Machine.leInt bs)))
  else .error (.notOneCommandWord bs.length)

/-- The decoder's answer on an instruction numbered as spec/opcode_table.json numbers it: one word of 264 bits, bit 0
least significant; the bits above `nbits` are zero. -/
def decodeTableWord (nbits w : Nat) : Option Instr :=
  if nbits ≤ 264 then
    match decodeBytes (bytesOfNat 33 (w % 2 ^ nbits)) with
    | .ok i => some i
    | .error _ => none
  else none

/-- The opcode of a command (R41). -/
def opOf : Instr → OpField
  | .start _ _ => 0b00#2
  | .key _ _ => 0b01#2
  | .block _ _ => 0b10#2
  | .final _ _ => 0b11#2

/-- The command word `{op, len, data}` of a command (R38, R41). -/
def encode (i : Instr) : CmdWord := ((opOf i ++ i.len) ++ i.data).cast (show 2 + 6 + 256 = 264 from rfl)

/-- The header `H = W[263:256] = {op, len}` of a command word (R38). -/
def header (w : CmdWord) : BitVec 8 := w.extractLsb' 256 8

/-- A command word as 33 bytes, lane 0 first. -/
def encodeBytes (i : Instr) : List Byte := bytesOfNat 33 (encode i).toNat

end Sys2Proof
end

