-- ==== Sys2Proof/Machine/Datapath.lean ====
section
/-! DEFINITION. The modular_multiplier and the final adder (40_datapath_units.md R59 to R63): exact natural arithmetic,
one modulus at the end. -/

namespace Sys2Proof.Machine

/-- `mulmod(a, b) = (a * b) mod P` on the exact product: the canonical residue (R60). -/
def mulmod (a b : Nat) : Nat := a * b % Config.prime

/-- `final_add(acc, s) = (acc + s) mod 2^128` on the exact sum (R63, R73). -/
def finalAdd (acc s : Nat) : Nat := (acc + s) % Config.tagModulus

/-- The reference reduction of R62: two folds by `2^130 = P + 5`, a third for bit 130, one conditional subtraction.
Informative in the spec; no command calls it. -/
def refReduce (x : Nat) : Nat :=
  let y := 5 * slice x 258 130 + slice x 129 0
  let z := 5 * slice y 131 130 + slice y 129 0
  let w := 5 * slice z 130 130 + slice z 129 0
  if Config.prime ≤ w then w - Config.prime else w

end Sys2Proof.Machine
end

