-- ==== Sys2Proof/Machine/State.lean ====
section
/-! DEFINITION. The state of the block (10_state.md R10), the statuses and responses it answers with (30_encoding.md R46,
R47), what the host can do to it (00_scope.md R9, 70_reset_and_hazards.md R98), and its state after reset (R23). -/

namespace Sys2Proof.Machine

/-- Reasons for the machine to stop with a fault: none. A failing command answers a status and the block goes on
(60_exceptions.md R94, R95), every word has a defined effect in every state (93_implementation_defined.md section 1),
and the block never halts (R112). -/
inductive Fault
  deriving DecidableEq, Repr

/-- Reasons for the model to give an instruction no meaning. -/
inductive Refusal where
  /-- Raised only by an arm of `exec` whose instruction has no meaning yet (none is left). Safe: the model stops where
  the hardware goes on. -/
  | notModelled (mnemonic : String)
  deriving DecidableEq, Repr

/-- The result code of a response (30_encoding.md R47, 60_exceptions.md R84). -/
inductive Status where
  | ok
  | invalidKeyLength
  | badLength
  | noKey
  deriving DecidableEq, Repr

/-- The fields of a response word (R46). -/
structure Response where
  status   : Status
  tagValid : Bool
  tag      : Half
  deriving DecidableEq, Repr

/-- What the host can do (R9): present a command word and take its response, assert reset between two commands (R98),
or assert reset after a command was accepted and before its response was taken (R99). -/
inductive HostAct where
  | command (word : CmdWord)
  | reset
  | resetDuring (word : CmdWord)
  deriving DecidableEq, Repr

/-- The architectural state `(KV, R, S, ACC)` (R10), and the two ports of the transaction level: the host acts still to
come and the responses given since the last reset (R9, R112). The last two are the model's own, log entries 1 and 2. -/
structure State where
  /-- `KV`, key valid (R16). -/
  kv        : Bool
  /-- `R`, the clamped first key half (R11). -/
  r         : Half
  /-- `S`, the second key half (R12). -/
  s         : Half
  /-- `ACC`, the accumulator (R13). -/
  acc       : Residue
  /-- What the host does next, oldest first. DESIGN CHOICE, log entry 1. -/
  inputs    : List HostAct
  /-- The responses given since the last reset, oldest first. DESIGN CHOICE, log entry 2. -/
  responses : List Response
  deriving DecidableEq, Repr

/-- The state after reset: every element zero (R23), no host act pending, no response given. -/
def State.reset : State :=
  { kv := false, r := 0, s := 0, acc := 0, inputs := [], responses := [] }

end Sys2Proof.Machine
end

