-- ==== Sys2Proof/Machine/Flags.lean ====
section
/-! DEFINITION. The one flag `KV` (10_state.md R16, R17), the status codes and the response word (30_encoding.md R46,
R47), and the length checks of the formats (R39, R44). -/

namespace Sys2Proof.Machine

/-- The status codes (R47). -/
def statusCode : Status → BitVec 2
  | .ok => 0b00#2
  | .invalidKeyLength => 0b01#2
  | .badLength => 0b10#2
  | .noKey => 0b11#2

/-- The response word `{status, tag_valid, tag}` (R46). -/
def responseWord (rsp : Response) : RspWord :=
  ((statusCode rsp.status ++ BitVec.ofBool rsp.tagValid) ++ rsp.tag).cast (show 2 + 1 + 128 = 131 from rfl)

/-- Whether the key slot holds an instance: the test `KV = 0` of `START`, `BLOCK`, `FINAL` (R16, R89). -/
def State.hasKey (s : State) : Bool := s.kv

/-- `START` takes no operand: `len` must be 0 (R39, R67). -/
def startLenLegal (len : LenField) : Bool := len == 0#6

/-- `KEY` takes a declared length of 32 (R39, R86). -/
def keyLenLegal (len : LenField) : Bool := len == 32#6

/-- `BLOCK` takes 1 to 16 bytes (R39, R68). -/
def blockLenLegal (len : LenField) : Bool := !(len == 0#6) && len.toNat ≤ 16

/-- `FINAL` takes no operand: `len` must be 0 (R39, R71). -/
def finalLenLegal (len : LenField) : Bool := len == 0#6

end Sys2Proof.Machine
end

