-- ==== Sys2Proof/Machine/Ops.lean ====
section
/-! DEFINITION. The operations the commands are written in: writing the registers, answering, the checks in their fixed
order, raising a status, and reset. -/

namespace Sys2Proof.Machine

/-- `ACC <- v` (R13). -/
def State.setAcc (s : State) (v : Residue) : State := { s with acc := v }

/-- The register writes of a successful `KEY` (R64): a new instance, with no message in progress. -/
def State.loadKey (s : State) (r sHalf : Half) : State :=
  { s with kv := true, r := r, s := sHalf, acc := 0 }

/-- The wipe: `KV, R, S, ACC <- 0` (R87, R114). -/
def State.wipe (s : State) : State := { s with kv := false, r := 0, s := 0, acc := 0 }

/-- `respond(status, tag_valid, tag)`: the one response of a command (R46, R113). -/
def State.respond (s : State) (status : Status) (tagValid : Bool) (tag : Half) : State :=
  { s with responses := s.responses ++ [{ status, tagValid, tag }] }

/-- An OK answer that carries no tag: the answer of `KEY`, `START` and `BLOCK` (R64, R67, R68). -/
def State.respondOk (s : State) : State := s.respond .ok false 0

/-- The state effect of a status (R84): a failed `KEY` wipes (R87), the others change nothing (R88, R89). -/
def State.statusEffect (s : State) : Status → State
  | .invalidKeyLength => s.wipe
  | .ok => s
  | .badLength => s
  | .noKey => s

/-- `raise <Status>`: what stands in for taking an exception (R94, R113). The status's state effect and its response,
with no tag; nothing is saved and control goes nowhere. There is no return from it, and nothing to restore (R95). -/
def State.raise (s : State) (status : Status) : State :=
  (s.statusEffect status).respond status false 0

/-- The checks of `START`, `BLOCK` and `FINAL` in the order of R90: the length, then the key; then the effect. -/
def State.checked (s : State) (lenLegal : Bool) (effect : State → State) :
    Host.Outcome State Fault Refusal :=
  if lenLegal = false then .next (s.raise .badLength)
  else if s.hasKey = false then .next (s.raise .noKey)
  else .next (effect s)

/-- Reset (R98, R99): the reset state of R23. What the host does next is kept; the responses start afresh. -/
def State.applyReset (s : State) : State := { State.reset with inputs := s.inputs }

end Sys2Proof.Machine
end

