-- ==== Sys2Proof/Machine/Absorb.lean ====
section
/-! DEFINITION. Message absorption: `START` and `BLOCK` (42_absorb.md). -/

namespace Sys2Proof.Machine

/-- `START` (R67). The payload is ignored. -/
def execStart (len : LenField) (_data : Payload) (s : State) : Host.Outcome State Fault Refusal :=
  s.checked (startLenLegal len) fun s => (s.setAcc 0).respondOk

/-- `ACC + val`, the exact sum that enters the multiplier (R61, R68). -/
def blockSum (len : LenField) (data : Payload) (s : State) : Nat :=
  s.acc.toNat + blockValue data len.toNat

/-- The accumulator after a `BLOCK`: `mulmod(ACC + val, R)` (R68). The addition comes before the multiplication (R70). -/
def foldedAcc (len : LenField) (data : Payload) (s : State) : Residue :=
  BitVec.ofNat 130 (mulmod (blockSum len data s) s.r.toNat)

/-- `BLOCK` (R68). -/
def execBlock (len : LenField) (data : Payload) (s : State) : Host.Outcome State Fault Refusal :=
  s.checked (blockLenLegal len) fun s => (s.setAcc (foldedAcc len data s)).respondOk

end Sys2Proof.Machine
end

