-- ==== Sys2Proof/Machine/Finalize.lean ====
section
/-! DEFINITION. Finalisation: `FINAL` (43_finalize.md). -/

namespace Sys2Proof.Machine

/-- `final_add(ACC, S)`, the tag field of a successful `FINAL` (R46, R71). -/
def finalTag (s : State) : Half := BitVec.ofNat 128 (finalAdd s.acc.toNat s.s.toNat)

/-- `FINAL` (R71). The payload is ignored; the tag is of the accumulator before it is cleared. -/
def execFinal (len : LenField) (_data : Payload) (s : State) : Host.Outcome State Fault Refusal :=
  s.checked (finalLenLegal len) fun s => (s.setAcc 0).respond .ok true (finalTag s)

end Sys2Proof.Machine
end

