-- ==== Sys2Proof/Machine/KeySetup.lean ====
section
/-! DEFINITION. Key setup: `KEY` (41_key_setup.md). -/

namespace Sys2Proof.Machine

/-- `KEY` (R64): the one check is `len = 32` (R86); no payload value is refused. -/
def execKey (len : LenField) (data : Payload) (s : State) : Host.Outcome State Fault Refusal :=
  if keyLenLegal len = false then .next (s.raise .invalidKeyLength)
  else .next ((s.loadKey (clamp (keyLow data)) (keyHigh data)).respondOk)

end Sys2Proof.Machine
end

