-- ==== Sys2Proof/Machine/Dispatch.lean ====
section
/-! DEFINITION. The dispatch of 30_encoding.md R40: one arm per command. -/

namespace Sys2Proof.Machine

/-- The effect of a command on the state (R40). -/
def exec (i : Instr) (s : State) : Host.Outcome State Fault Refusal :=
  match i with
  | .start len data => Sys2Proof.Machine.execStart len data s
  | .key len data => Sys2Proof.Machine.execKey len data s
  | .block len data => Sys2Proof.Machine.execBlock len data s
  | .final len data => Sys2Proof.Machine.execFinal len data s

end Sys2Proof.Machine
end

