-- ==== Sys2Proof/Machine/Step.lean ====
section
/-! DEFINITION. One step: the oldest act of the host (00_scope.md R9, 70_reset_and_hazards.md R98, R99, R112). -/

namespace Sys2Proof.Machine

/-- One step. A command word is accepted, decoded and executed whole (R9, R31, R40); a reset leaves the reset state,
whatever a command in flight would have done (R98, R99); with nothing to do the state does not change (R112). -/
def step (s : State) : Host.Outcome State Fault Refusal :=
  match s.inputs with
  | [] => .next s
  | .command w :: rest => exec (decode w) { s with inputs := rest }
  | .reset :: rest => .next ({ s with inputs := rest } : State).applyReset
  | .resetDuring _ :: rest => .next ({ s with inputs := rest } : State).applyReset

/-- The state with one command word of the opcode table presented next at the command port (log entry 3). -/
def State.withFetchWord (s : State) (nbits w : Nat) : State :=
  { s with inputs := .command (BitVec.ofNat 264 (w % 2 ^ nbits)) :: s.inputs }

end Sys2Proof.Machine
end

