-- ==== Sys2Proof/Machine/Ports.lean ====
section
/-! DEFINITION. The signal level: the eight ports of 10_state.md R21, the two handshakes and reset at clock edges
(70_reset_and_hazards.md R98 to R103), and the latencies (R109, R110). A machine over the transaction-level one; what it
adds is no architectural state (R20), and `step` never reads it. What it leaves out is log entry 5. -/

namespace Sys2Proof.Machine

open Sys2Proof.Config (Latencies)

/-- What the host drives, as sampled at one rising edge of `clk` (R21): `rst_n`; `cmd_valid` with `cmd_word`, the word
being given only while valid (R101, U4); `rsp_ready`. -/
structure PortIn where
  rstN     : Bool
  cmd      : Option CmdWord
  rspReady : Bool
  deriving DecidableEq, Repr

/-- Between two edges the block is held in reset (R98), waits for a command, or has one in flight (R103): its response,
and the edges still to pass before the one at which it is presented (R102, R109). -/
inductive Phase where
  | inReset
  | idle
  | inFlight (rsp : Response) (wait : Nat)
  deriving DecidableEq, Repr

/-- The block at its ports: the architectural state, the phase, and the responses taken since the last reset. -/
structure PortState where
  core  : State
  phase : Phase
  taken : List Response
  deriving DecidableEq, Repr

/-- After an edge with `rst_n = 0` (R98, R99). -/
def PortState.reset : PortState := { core := State.reset, phase := .inReset, taken := [] }

/-- `cmd_ready`: 0 in reset (R98) and from a command's acceptance until its response is taken (R103), and 1 otherwise
(DEDUCED, log entry 4). It does not depend on `cmd_valid` (R101). -/
def PortState.cmdReady (p : PortState) : Bool :=
  match p.phase with
  | .idle => true
  | .inReset => false
  | .inFlight _ _ => false

/-- The response presented at the next edge, if one is. -/
def PortState.presented (p : PortState) : Option Response :=
  match p.phase with
  | .inFlight rsp 0 => some rsp
  | .inFlight _ (_ + 1) => none
  | .inReset => none
  | .idle => none

/-- `rsp_valid` with `rsp_word`; the word is given only while valid (R102, U2). -/
def PortState.rspWord (p : PortState) : Option RspWord := p.presented.map responseWord

/-- `rsp_valid` (R102). -/
def PortState.rspValid (p : PortState) : Bool := p.presented.isSome

/-- The latency of a command by its opcode and by whether it answers OK, and by nothing else (R109, R110). -/
def latencyOf (L : Latencies) (i : Instr) (status : Status) : Nat :=
  if status = .ok then
    match i with
    | .start _ _ => L.start
    | .key _ _ => L.key
    | .block _ _ => L.block
    | .final _ _ => L.final
  else L.err

/-- The response given last. -/
def State.newest (s : State) : Response := s.responses.getLastD { status := .ok, tagValid := false, tag := 0 }

/-- Whether a command is accepted at this edge, and which: `rst_n`, `cmd_valid` and `cmd_ready` all 1 (R101). -/
def PortState.accepts (p : PortState) (i : PortIn) : Option CmdWord :=
  if i.rstN && p.cmdReady then i.cmd else none

/-- Acceptance of a command: its whole effect (R31, R103), and its response put in flight. -/
def PortState.accept (L : Latencies) (p : PortState) (w : CmdWord) : PortState :=
  match exec (decode w) p.core with
  | .next t =>
    { p with core := t, phase := .inFlight t.newest (latencyOf L (decode w) t.newest.status - 1) }
  | .fault _ => p
  | .refused _ => p

/-- One rising edge of `clk`. When the block is ready after reset, and how the edges of a latency are counted, is
DEDUCED, log entry 4. -/
def PortState.edge (L : Latencies) (p : PortState) (i : PortIn) : PortState :=
  if i.rstN = false then PortState.reset
  else
    match p.phase with
    | .inReset => { p with phase := .idle }
    | .idle =>
      match i.cmd with
      | some w => p.accept L w
      | none => p
    | .inFlight rsp (n + 1) => { p with phase := .inFlight rsp n }
    | .inFlight rsp 0 =>
      if i.rspReady then { p with phase := .idle, taken := p.taken ++ [rsp] } else p

/-- Several edges, in order. -/
def PortState.edges (L : Latencies) (p : PortState) (is : List PortIn) : PortState :=
  is.foldl (PortState.edge L) p

/-- What one edge is at the transaction level: a reset, an accepted command, or nothing. -/
def PortState.act (p : PortState) (i : PortIn) : List HostAct :=
  if i.rstN = false then [.reset]
  else
    match p.accepts i with
    | some w => [.command w]
    | none => []

/-- What several edges are at the transaction level. -/
def PortState.acts (L : Latencies) : PortState → List PortIn → List HostAct
  | _, [] => []
  | p, i :: is => p.act i ++ PortState.acts L (p.edge L i) is

end Sys2Proof.Machine
end

