-- ==== Sys2Proof/Machine/Sequences.lean ====
section
/-! DEFINITION. What the host does with the block: the assembler's command words (30_encoding.md R48), the partition of a
message, the pseudo-instructions `TAG` and `MAC` (R49, R75, R76), and the function they compute, restated without the
hardware (44_sequences.md R74, R78, R80). None of it is part of `step`. -/

namespace Sys2Proof.Machine

/-- `chunks(msg)`: `ceil(L/16)` consecutive pieces of at most 16 bytes, none for the empty message (R74). -/
def chunks (msg : List Byte) : List (List Byte) :=
  (List.range ((msg.length + 15) / 16)).map fun j => (msg.drop (16 * j)).take 16

/-- Bytes placed in lanes 0 upward, the other lanes zero; there are 32 lanes (R43, R48). -/
def packLanes (b : List Byte) : Payload := BitVec.ofNat 256 (leInt b)

/-- The declared length of a byte string in the 6-bit field. A length above 63 is not truncated into the field but
declared as 63, the rule's own example (R42; DESIGN CHOICE, log entry 6). -/
def declaredLen (n : Nat) : LenField := BitVec.ofNat 6 (min n 63)

/-- `KEY <hex of n bytes>` (R48). -/
def asmKey (key : List Byte) : Instr := .key (declaredLen key.length) (packLanes key)

/-- `BLOCK <hex of n bytes>` (R48). -/
def asmBlock (chunk : List Byte) : Instr := .block (declaredLen chunk.length) (packLanes chunk)

/-- `TAG msg`: `START`, one `BLOCK` a chunk, `FINAL` (R75). -/
def tagCommands (msg : List Byte) : List Instr :=
  .start 0 0 :: ((chunks msg).map asmBlock ++ [.final 0 0])

/-- `MAC key, msg`: `KEY key`, then `TAG msg` (R76). -/
def macCommands (key msg : List Byte) : List Instr := asmKey key :: tagCommands msg

/-- `n` steps (R112). -/
def run : Nat → State → Host.Outcome State Fault Refusal
  | 0, s => .next s
  | n + 1, s =>
    match step s with
    | .next t => run n t
    | .fault r => .fault r
    | .refused r => .refused r

/-- The host presents commands, in order, before what it was going to do next. -/
def State.present (s : State) (cs : List Instr) : State :=
  { s with inputs := cs.map (fun i => HostAct.command (encode i)) ++ s.inputs }

/-- A chunk's value with its sentinel, `le_int(c) + 256^len(c)` (R78). -/
def chunkValue (c : List Byte) : Nat := leInt c + 256 ^ c.length

/-- The recurrence over a list of chunk values: `acc = (r * (acc + m)) mod P`, in order (R78). -/
def absorb (r : Nat) (acc : Nat) (ms : List Nat) : Nat :=
  ms.foldl (fun acc m => r * (acc + m) % Config.prime) acc

/-- `poly1305(key, msg)` for a key of 32 bytes (R78). On a key of another length, where R78 leaves it undefined, Lean gives
it a value that means nothing (DESIGN CHOICE, log entry 8). -/
def poly1305 (key msg : List Byte) : List Byte :=
  let r := leInt (key.take 16) &&& Config.clampMask.toNat
  let s := leInt (key.drop 16)
  leBytes16 ((absorb r 0 ((chunks msg).map chunkValue) + s) % Config.tagModulus)

/-- `m_1 * r^k + m_2 * r^(k-1) + ... + m_k * r`, before the reduction (R80). -/
def closedForm (r : Nat) : List Nat → Nat
  | [] => 0
  | m :: ms => m * r ^ (ms.length + 1) + closedForm r ms

/-- Byte `i` of the tag of a response: lane `i` of its tag field (R46, R54). -/
def Response.tagBytes (rsp : Response) : List Byte := leBytes16 rsp.tag.toNat

end Sys2Proof.Machine
end

