-- ==== Sys2Proof/WellFormed.lean ====
section
/-! DEFINITION. Which commands are legal as words (30_encoding.md R39, R44). An ill-formed command is no stuck case: it
still has an encoding, decodes, and runs to the status R44 gives it (DESIGN CHOICE, log entry 7). -/

namespace Sys2Proof

/-- The words of class "legal" in R44: `len` is 0 for `START` and `FINAL`, 32 for `KEY`, 1 to 16 for `BLOCK`. -/
def WellFormed : Instr → Bool
  | .start len _ => len.toNat == 0
  | .key len _ => len.toNat == 32
  | .block len _ => 1 ≤ len.toNat && len.toNat ≤ 16
  | .final len _ => len.toNat == 0

end Sys2Proof
end

