-- ==== Sys2Proof/Safety.lean ====
section
/-! DEFINITION. What claims are stated in: the invariants of the state (10_state.md R14), the form of responses
(30_encoding.md R46), the status a command answers (60_exceptions.md R84, R90), and the well-formed port states. -/

namespace Sys2Proof.Safety

open Sys2Proof.Machine

/-- INV1: `ACC <= P - 1` (R14). -/
abbrev AccCanonical (s : State) : Prop := s.acc.toNat < Config.prime

/-- INV2: `R & ~CLAMP_MASK = 0` (R14). -/
abbrev KeyClamped (s : State) : Prop := s.r &&& ~~~Config.clampMask = 0

/-- INV3: `KV = 0` implies `R = 0`, `S = 0` and `ACC = 0` (R14). -/
abbrev EmptySlotIsZero (s : State) : Prop := s.kv = false → s.r = 0 ∧ s.s = 0 ∧ s.acc = 0

/-- INV1 to INV3, the well-formedness predicate of a state (R14). -/
abbrev StateInv (s : State) : Prop := AccCanonical s ∧ KeyClamped s ∧ EmptySlotIsZero s

/-- A response carries a tag only with status OK, and without one its tag field is zero (R46). -/
abbrev CleanResponse (rsp : Response) : Prop :=
  (rsp.tagValid = true → rsp.status = .ok) ∧ (rsp.tagValid = false → rsp.tag = 0)

/-- Every response given so far is clean. -/
abbrev CleanResponses (s : State) : Prop := ∀ rsp ∈ s.responses, CleanResponse rsp

/-- The status a command answers when the key flag is `kv`: the rows of R84, in the order of R90. -/
def answer (kv : Bool) : Instr → Status
  | .key len _ => if len.toNat = 32 then .ok else .invalidKeyLength
  | .start len _ => if len.toNat ≠ 0 then .badLength else if kv then .ok else .noKey
  | .block len _ =>
    if len.toNat = 0 ∨ 16 < len.toNat then .badLength else if kv then .ok else .noKey
  | .final len _ => if len.toNat ≠ 0 then .badLength else if kv then .ok else .noKey

/-- Whether a command is a `FINAL`. -/
def isFinal : Instr → Bool
  | .final _ _ => true
  | .start _ _ => false
  | .key _ _ => false
  | .block _ _ => false

/-- Whether a command is a `KEY`. -/
def isKey : Instr → Bool
  | .key _ _ => true
  | .start _ _ => false
  | .block _ _ => false
  | .final _ _ => false

/-- The outstanding response of the port machine, presented or not yet. -/
def outstanding (p : PortState) : List Response :=
  match p.phase with
  | .inFlight rsp _ => [rsp]
  | .inReset => []
  | .idle => []

/-- A phase less the response it carries: what the timing of the ports may depend on (R110). -/
def timingOf : Phase → Phase
  | .inFlight _ n => .inFlight { status := .ok, tagValid := false, tag := 0 } n
  | .inReset => .inReset
  | .idle => .idle

/-- One response for each command, in order, none lost and none invented: the responses given are those taken and the one
outstanding (R33, R91, R103). -/
abbrev PortsInOrder (p : PortState) : Prop := p.core.responses = p.taken ++ outstanding p

end Sys2Proof.Safety
end

