-- ==== Sys2Proof/Certificates/Slice0/Obligations.lean ====
section
/-! DEFINITION. The statements for the provers, each from the rules of spec/ its docstring names. -/

open Sys2Proof Sys2Proof.Machine Sys2Proof.Safety
open Sys2Proof.Config (Latencies prime clampMask)

/-! ### Encoding -/

/-- Words written out from the encoding of R38 and R41 (their headers are those R41 lists) decode to the commands they
stand for. -/
def Obligations.DecodeOfWrittenWords : Prop :=
  decode 0x000000000000000000000000000000000000000000000000000000000000000000#264 = .start 0 0 ∧
  decode 0x601bf54941aff6bf4afdb20dfb8a800301a806d542fe52447f336d555778bed685#264
    = .key 32 0x1bf54941aff6bf4afdb20dfb8a800301a806d542fe52447f336d555778bed685#256 ∧
  decode 0x820000000000000000000000000000000000000000000000000000000000007075#264 = .block 2 0x7075#256 ∧
  decode 0xc00000000000000000000000000000000000000000000000000000000000000000#264 = .final 0 0 ∧
  decode 0xc10000000000000000000000000000000000000000000000000000000000000000#264 = .final 1 0

/-- Decoding the word of a command gives the command back, for every command and every value of its fields. -/
def Obligations.DecodeEncodeRoundTrip : Prop := ∀ i : Instr, decode (encode i) = i

/-- Every command word is the word of what it decodes to: no two words decode to one command (R40). -/
def Obligations.EncodeDecodeRoundTrip : Prop := ∀ w : CmdWord, encode (decode w) = w

/-- The fields of R38 as the slices of R113, and the dispatch of R40: every word selects one command by
`op = W[263:262]`, with `len = W[261:256]` and `data = W[255:0]`; the header is `W[263:256] = {op, len}`. -/
def Obligations.DecodeSelectsByOpcode : Prop :=
  ∀ w : CmdWord,
    let op := slice w.toNat 263 262
    let len := BitVec.ofNat 6 (slice w.toNat 261 256)
    let data := BitVec.ofNat 256 (slice w.toNat 255 0)
    ((op = 0 ∧ decode w = .start len data) ∨ (op = 1 ∧ decode w = .key len data) ∨
    (op = 2 ∧ decode w = .block len data) ∨ (op = 3 ∧ decode w = .final len data)) ∧
    (header w).toNat = slice w.toNat 263 256 ∧ header w = opField w ++ lenField w

/-- The mask and match values of spec/opcode_table.json: a word belongs to a row if and only if it decodes to that row's
command. -/
def Obligations.OpcodeTableMatches : Prop :=
  ∀ w : CmdWord,
    let masked := w &&& (0xc0#264 <<< 256)
    (masked = 0x00#264 <<< 256 ↔ ∃ len data, decode w = .start len data) ∧
    (masked = 0x40#264 <<< 256 ↔ ∃ len data, decode w = .key len data) ∧
    (masked = 0x80#264 <<< 256 ↔ ∃ len data, decode w = .block len data) ∧
    (masked = 0xc0#264 <<< 256 ↔ ∃ len data, decode w = .final len data)

/-- A command given as its 33 bytes decodes to itself, and a list of any other length is rejected by name (R37). The
byte view is the model's (log entry 3). -/
def Obligations.ByteDecodeRoundTrip : Prop :=
  (∀ i : Instr, decodeBytes (encodeBytes i) = .ok i) ∧
  (∀ bs : List Byte, bs.length ≠ 33 → decodeBytes bs = .error (.notOneCommandWord bs.length))

/-- The fields of a response word (R46) and the four status codes (R47). -/
def Obligations.ResponseWordFields : Prop :=
  (∀ rsp : Response,
    slice (responseWord rsp).toNat 130 129 = (statusCode rsp.status).toNat ∧
    slice (responseWord rsp).toNat 128 128 = rsp.tagValid.toNat ∧
    slice (responseWord rsp).toNat 127 0 = rsp.tag.toNat) ∧
  (statusCode .ok).toNat = 0 ∧ (statusCode .invalidKeyLength).toNat = 1 ∧
  (statusCode .badLength).toNat = 2 ∧ (statusCode .noKey).toNat = 3

/-! ### One step -/

/-- When the next act of the host is a command word that decodes to `i`, a step is `exec` of `i`; around it the step only
takes the word off the command port. -/
def Obligations.StepRunsDecodedCommand : Prop :=
  ∀ (s : State) (w : CmdWord) (rest : List HostAct) (i : Instr),
    s.inputs = .command w :: rest → decode w = i →
    step s = exec i { s with inputs := rest }

/-- With no command presented the state does not change (R112). -/
def Obligations.QuiescentWithoutInput : Prop :=
  ∀ s : State, s.inputs = [] → step s = .next s

/-- Reset, between commands or with one in flight: the registers take the values of R23 from every state, and no response
is given (R98, R99). That the list of responses starts afresh is the model's choice, log entry 2. -/
def Obligations.HostResetReachesResetState : Prop :=
  ∀ (s : State) (rest : List HostAct),
    (s.inputs = .reset :: rest ∨ ∃ w, s.inputs = .resetDuring w :: rest) →
    step s = .next { State.reset with inputs := rest }

/-- R23: every state element is zero after reset. -/
def Obligations.ResetValues : Prop :=
  State.reset.kv = false ∧ State.reset.r = 0 ∧ State.reset.s = 0 ∧ State.reset.acc = 0

/-- The block never halts (R112), and every word has a defined effect in every state (R40, R44): from every state a step
gives a next state, never a fault and never a refusal. That it takes at most one act of the host is R9's one command a
step on the list of acts, which is the model's choice, log entry 1. -/
def Obligations.StepNeverStops : Prop :=
  ∀ s : State, ∃ t, step s = .next t ∧ t.inputs = s.inputs.drop 1

/-! ### The commands -/

/-- R64, `KEY`: with `len = 32` the clamped first half goes to `R`, the second half to `S`, `ACC` to 0, `KV` to 1, and the
answer is OK; with any other length the block is wiped and answers InvalidKeyLength. -/
def Obligations.KeyLoadsOrWipes : Prop :=
  ∀ (len : LenField) (data : Payload) (s : State),
    ∃ t, exec (.key len data) s = .next t ∧ t.acc = 0 ∧ t.inputs = s.inputs ∧
      (len.toNat = 32 →
        t.kv = true ∧
        t.r.toNat = leInt (lanes data 16) &&& clampMask.toNat ∧
        t.s.toNat = leInt ((lanes data 32).drop 16) ∧
        t.responses = s.responses ++ [⟨.ok, false, 0⟩]) ∧
      (len.toNat ≠ 32 →
        t.kv = false ∧ t.r = 0 ∧ t.s = 0 ∧
        t.responses = s.responses ++ [⟨.invalidKeyLength, false, 0⟩])

/-- R67, `START`: BadLength unless `len = 0`, then NoKey unless `KV = 1`, then `ACC` is 0 and the answer is OK. -/
def Obligations.StartClearsAccumulator : Prop :=
  ∀ (len : LenField) (data : Payload) (s : State),
    (len.toNat ≠ 0 →
      exec (.start len data) s = .next { s with responses := s.responses ++ [⟨.badLength, false, 0⟩] }) ∧
    (len.toNat = 0 → s.kv = false →
      exec (.start len data) s = .next { s with responses := s.responses ++ [⟨.noKey, false, 0⟩] }) ∧
    (len.toNat = 0 → s.kv = true →
      exec (.start len data) s = .next { s with acc := 0, responses := s.responses ++ [⟨.ok, false, 0⟩] })

/-- R68, `BLOCK`: BadLength unless `1 <= len <= 16`, then NoKey unless `KV = 1`, then
`ACC <- (R * (ACC + le_int(chunk) + 256^len)) mod P`, everything else unchanged, and the answer is OK. -/
def Obligations.BlockFoldsChunk : Prop :=
  ∀ (len : LenField) (data : Payload) (s : State),
    (len.toNat = 0 ∨ 16 < len.toNat →
      exec (.block len data) s = .next { s with responses := s.responses ++ [⟨.badLength, false, 0⟩] }) ∧
    (1 ≤ len.toNat → len.toNat ≤ 16 → s.kv = false →
      exec (.block len data) s = .next { s with responses := s.responses ++ [⟨.noKey, false, 0⟩] }) ∧
    (1 ≤ len.toNat → len.toNat ≤ 16 → s.kv = true →
      ∃ acc : Residue,
        acc.toNat
          = s.r.toNat * (s.acc.toNat + (leInt (lanes data len.toNat) + 256 ^ len.toNat)) % prime ∧
        exec (.block len data) s
          = .next { s with acc := acc, responses := s.responses ++ [⟨.ok, false, 0⟩] })

/-- R71, `FINAL`: BadLength unless `len = 0`, then NoKey unless `KV = 1`, then the answer is OK with the tag
`(ACC + S) mod 2^128`, `ACC` is 0 and everything else unchanged. -/
def Obligations.FinalReturnsTag : Prop :=
  ∀ (len : LenField) (data : Payload) (s : State),
    (len.toNat ≠ 0 →
      exec (.final len data) s = .next { s with responses := s.responses ++ [⟨.badLength, false, 0⟩] }) ∧
    (len.toNat = 0 → s.kv = false →
      exec (.final len data) s = .next { s with responses := s.responses ++ [⟨.noKey, false, 0⟩] }) ∧
    (len.toNat = 0 → s.kv = true →
      ∃ tag : Half,
        tag.toNat = (s.acc.toNat + s.s.toNat) % 2 ^ 128 ∧
        (⟨.ok, true, tag⟩ : Response).tagBytes = leBytes16 ((s.acc.toNat + s.s.toNat) % 2 ^ 128) ∧
        exec (.final len data) s
          = .next { s with acc := 0, responses := s.responses ++ [⟨.ok, true, tag⟩] })

/-- The frame, by the write columns of R15: a command other than `KEY` leaves `KV`, `R` and `S`; a refused command other
than `KEY` leaves `ACC` too; no command touches what the host does next, nor an earlier response. -/
def Obligations.FrameOfEveryCommand : Prop :=
  ∀ (i : Instr) (s t : State), exec i s = .next t →
    t.inputs = s.inputs ∧
    (∃ rsp, t.responses = s.responses ++ [rsp] ∧
      (isKey i = false → t.kv = s.kv ∧ t.r = s.r ∧ t.s = s.s) ∧
      (isKey i = false → rsp.status ≠ .ok → t.acc = s.acc))

/-- Every command answers exactly once (R46, R91), a tag comes exactly with an OK `FINAL`, and a response without a tag
has a zero tag field. -/
def Obligations.EveryCommandAnswersOnce : Prop :=
  ∀ (i : Instr) (s : State), ∃ t rsp, exec i s = .next t ∧
    t.responses = s.responses ++ [rsp] ∧
    (rsp.tagValid = true ↔ isFinal i = true ∧ rsp.status = .ok) ∧
    (rsp.tagValid = false → rsp.tag = 0)

/-- The status of every command in every state is the one R84 gives it, with the checks in the order of R90. -/
def Obligations.AnswerFollowsStatusTable : Prop :=
  ∀ (i : Instr) (s : State), ∃ t rsp, exec i s = .next t ∧
    t.responses = s.responses ++ [rsp] ∧ rsp.status = answer s.kv i

/-- R85: OK exactly for a `KEY` with `len = 32`, a `START` or `FINAL` with `len = 0` and `KV = 1`, or a `BLOCK` with
`1 <= len <= 16` and `KV = 1`; an OK response has a tag only for `FINAL`. -/
def Obligations.OkExactlyWhen : Prop :=
  ∀ (i : Instr) (s t : State) (rsp : Response),
    exec i s = .next t → t.responses = s.responses ++ [rsp] →
    (rsp.status = .ok ↔
      match i with
      | .key len _ => len.toNat = 32
      | .start len _ => len.toNat = 0 ∧ s.kv = true
      | .block len _ => 1 ≤ len.toNat ∧ len.toNat ≤ 16 ∧ s.kv = true
      | .final len _ => len.toNat = 0 ∧ s.kv = true) ∧
    (rsp.status = .ok → rsp.tagValid = true → isFinal i = true)

/-- R87 with the cause of R86: InvalidKeyLength is answered by a `KEY` whose `len` is not 32 and by nothing else, it wipes
the block, and it is the only non-OK status that changes state. Of commands answered OK it says nothing. -/
def Obligations.InvalidKeyLengthAloneAmongErrorsWipes : Prop :=
  ∀ (i : Instr) (s t : State) (rsp : Response),
    exec i s = .next t → t.responses = s.responses ++ [rsp] →
    (rsp.status = .invalidKeyLength ↔ isKey i = true ∧ i.len.toNat ≠ 32) ∧
    (rsp.status = .invalidKeyLength →
      t.kv = false ∧ t.r = 0 ∧ t.s = 0 ∧ t.acc = 0 ∧ rsp.tagValid = false ∧ rsp.tag = 0) ∧
    (rsp.status = .badLength ∨ rsp.status = .noKey → t = { s with responses := t.responses })

/-- R16, over every step and not only every command: `KV` becomes 1 only by a `KEY` with `len = 32` and 0 only by a `KEY`
of another length or a reset; and a `START`, `BLOCK` or `FINAL` with `KV = 0` is refused with NoKey, or with BadLength
where its length is illegal, which R90 checks first. -/
def Obligations.OnlyKeyAndResetChangeKeyValid : Prop :=
  (∀ s t : State, step s = .next t →
    (s.kv = false → t.kv = true →
      ∃ w rest data, s.inputs = .command w :: rest ∧ decode w = .key 32 data) ∧
    (s.kv = true → t.kv = false →
      (∃ w rest len data, s.inputs = .command w :: rest ∧ decode w = .key len data ∧ len ≠ 32) ∨
      (∃ rest, s.inputs = .reset :: rest) ∨ (∃ w rest, s.inputs = .resetDuring w :: rest)) ∧
    ((∃ rest, s.inputs = .reset :: rest ∨ ∃ w, s.inputs = .resetDuring w :: rest) → t.kv = false)) ∧
  (∀ (data : Payload) (s : State), ∃ t, exec (.key 32 data) s = .next t ∧ t.kv = true) ∧
  (∀ (len : LenField) (data : Payload) (s : State), len ≠ 32 →
    ∃ t, exec (.key len data) s = .next t ∧ t.kv = false) ∧
  (∀ (i : Instr) (s : State), isKey i = false → s.kv = false →
    ∃ t rsp, exec i s = .next t ∧ t.responses = s.responses ++ [rsp] ∧
      rsp.status = if WellFormed i then .noKey else .badLength)

/-! ### Invariants -/

/-- R14: every step keeps INV1, INV2 and INV3. -/
def Obligations.StepKeepsInvariants : Prop :=
  ∀ s t : State, StateInv s → step s = .next t → StateInv t

/-- R14: INV1, INV2 and INV3 hold after reset; and no response is listed then that would not be clean (R46). That the
list of responses is empty at reset is the model's choice, log entry 2. -/
def Obligations.ResetMeetsInvariants : Prop := StateInv State.reset ∧ CleanResponses State.reset

/-- Every step keeps every response clean: no tag without OK, and a zero field without a tag (R46). -/
def Obligations.StepKeepsResponsesClean : Prop :=
  ∀ s t : State, CleanResponses s → step s = .next t → CleanResponses t

/-- The widths of R7 and R59 hold every intermediate value of a `BLOCK`, exactly, from every state that meets INV1 and
INV2. -/
def Obligations.WidthsHoldEveryValue : Prop :=
  ∀ (len : LenField) (data : Payload) (s : State), StateInv s → len.toNat ≤ 16 →
    blockValue data len.toNat ≤ 2 ^ 129 - 1 ∧
    blockSum len data s ≤ 0x5fffffffffffffffffffffffffffffff9 ∧
    s.r.toNat < 2 ^ 124 ∧
    blockSum len data s * s.r.toNat
      ≤ 0x5fffffe85fffffe85fffffe85ffffff99000001b9000001b9000001b90000007 ∧
    (foldedAcc len data s).toNat = blockSum len data s * s.r.toNat % prime

/-! ### What a command cannot depend on, and what nothing reveals -/

/-- R43: lanes a command does not consume have no effect on state or response. -/
def Obligations.UnusedLanesIgnored : Prop :=
  ∀ (len : LenField) (d d' : Payload) (s : State),
    exec (.start len d) s = exec (.start len d') s ∧
    exec (.final len d) s = exec (.final len d') s ∧
    (len.toNat ≠ 32 → exec (.key len d) s = exec (.key len d') s) ∧
    (lanes d len.toNat = lanes d' len.toNat → exec (.block len d) s = exec (.block len d') s)

/-- A `KEY` of either outcome leaves nothing of the previous instance or of a message in progress (R65, R66): its result
is the same from any two states. -/
def Obligations.KeyForgetsThePast : Prop :=
  ∀ (len : LenField) (data : Payload) (s s' : State),
    s.inputs = s'.inputs → s.responses = s'.responses →
    exec (.key len data) s = exec (.key len data) s'

/-- The read columns of R15: `BLOCK` does not read `S`, and `FINAL` does not read `R`. -/
def Obligations.BlockIgnoresSAndFinalIgnoresR : Prop :=
  ∀ (len : LenField) (data : Payload) (s : State) (x : Half),
    (∃ t, exec (.block len data) s = .next t ∧
      exec (.block len data) { s with s := x } = .next { t with s := x }) ∧
    (∃ t, exec (.final len data) s = .next t ∧
      exec (.final len data) { s with r := x } = .next { t with r := x })

/-- No response carries a value derived from `R`, `S` or `ACC` but a requested tag (R46): while the host asks for no
tag, the responses are the same whatever the registers hold, over runs of any length. -/
def Obligations.NoTagRequestedNothingRevealed : Prop :=
  ∀ (n : Nat) (s s' t t' : State),
    s.kv = s'.kv → s.inputs = s'.inputs → s.responses = s'.responses →
    (∀ w, HostAct.command w ∈ s.inputs → isFinal (decode w) = false) →
    run n s = .next t → run n s' = .next t' →
    t.responses = t'.responses ∧ t.kv = t'.kv ∧ t.inputs = t'.inputs

/-- Until a `KEY` with `len = 32` is executed, an empty slot stays empty and no command is answered OK (R66, R89, R95),
over runs of any length. -/
def Obligations.NoOkWithoutAKey : Prop :=
  ∀ (n : Nat) (s t : State),
    s.kv = false → (∀ rsp ∈ s.responses, rsp.status ≠ .ok) →
    (∀ w data, HostAct.command w ∈ s.inputs → decode w ≠ .key 32 data) →
    run n s = .next t →
    t.kv = false ∧ ∀ rsp ∈ t.responses, rsp.status ≠ .ok

/-! ### The datapath -/

/-- R62: the reference reduction gives the canonical residue of every product of the multiplier's full widths. -/
def Obligations.ReferenceReductionIsMulmod : Prop :=
  (∀ x : Nat, x < 2 ^ 259 → refReduce x = x % prime) ∧
  (∀ a b : Nat, a < 2 ^ 131 → b < 2 ^ 128 → refReduce (a * b) = mulmod a b)

/-- R57: the clamp, bit by bit, by bytes and by 32-bit words, of which 106 bits pass; and it is idempotent (R58). -/
def Obligations.ClampByBitAndByte : Prop :=
  ∀ x : Half,
    (List.range 128).countP clampMask.getLsbD = 106 ∧
    (∀ i < 128, (clamp x).getLsbD i
      = (x.getLsbD i && !(decide ((28 ≤ i ∧ i ≤ 33) ∨ (60 ≤ i ∧ i ≤ 65) ∨ (92 ≤ i ∧ i ≤ 97) ∨ 124 ≤ i)))) ∧
    (∀ i < 16, (clamp x).extractLsb' (8 * i) 8
      = x.extractLsb' (8 * i) 8 &&&
        (if i % 4 = 3 then 0x0f#8 else if i % 4 = 0 ∧ i ≠ 0 then 0xfc#8 else 0xff#8)) ∧
    (∀ k < 4, (clamp x).extractLsb' (32 * k) 32
      = x.extractLsb' (32 * k) 32 &&& (if k = 0 then 0x0fffffff#32 else 0x0ffffffc#32)) ∧
    clamp (clamp x) = clamp x

/-- R55: packing and unpacking are inverse to each other, and unpacking distributes over concatenation. -/
def Obligations.PackerRoundTrip : Prop :=
  (∀ b : List Byte, b.length = 16 → leBytes16 (leInt b) = b) ∧
  (∀ v : Nat, v < 2 ^ 128 → leInt (leBytes16 v) = v) ∧
  (∀ a b : List Byte, leInt (a ++ b) = leInt a + 256 ^ a.length * leInt b) ∧
  (∀ key : List Byte, key.length = 32 →
    leInt key = leInt (key.take 16) + 2 ^ 128 * leInt ((key.drop 16).take 16))

/-- R53 with R52: the chunk's value is that of its lanes, and its sentinel sets exactly the bit above it, which is a
byte `0x01` after the chunk. -/
def Obligations.BlockValueSetsSentinel : Prop :=
  ∀ (data : Payload) (n : Nat), 1 ≤ n → n ≤ 16 →
    chunkInt data n = data.toNat % 2 ^ (8 * n) ∧ chunkInt data n ≤ 2 ^ (8 * n) - 1 ∧
    chunkInt data n = leInt (lanes data n) ∧
    blockValue data n = chunkInt data n + 2 ^ (8 * n) ∧
    blockValue data n = chunkInt data n ||| (1 <<< (8 * n)) ∧
    blockValue data n = leInt (lanes data n ++ [1#8]) ∧
    2 ^ (8 * n) ≤ blockValue data n ∧ blockValue data n ≤ 2 ^ (8 * n + 1) - 1

/-- R63: the final sum is exact and reduced modulo `2^128` only; bits 129 and 128 of `ACC` do not enter; and a value of
`ACC` merely congruent modulo `P` gives a tag 5 less. -/
def Obligations.FinalAddIsLowBits : Prop :=
  ∀ acc s : Nat,
    finalAdd acc s = (acc + s) % 2 ^ 128 ∧
    finalAdd acc s = slice (acc + s) 127 0 ∧
    finalAdd acc s = finalAdd (slice acc 127 0) s ∧
    (finalAdd (acc + prime) s + 5) % 2 ^ 128 = finalAdd acc s ∧
    (acc < prime → s < 2 ^ 128 → acc + s ≤ 0x4fffffffffffffffffffffffffffffff9)

/-! ### Sequences of commands -/

/-- R33: a run over commands answers each of them once, in order; the `i`-th response is the one the `i`-th command gives
in the state that the commands before it left. -/
def Obligations.RunAnswersInOrder : Prop :=
  ∀ (pre : List Instr) (c : Instr) (post : List Instr) (s : State),
    ∃ (u v t : State) (rsp : Response) (rs : List Response),
      run pre.length (s.present (pre ++ c :: post)) = .next (u.present (c :: post)) ∧
      u.inputs = s.inputs ∧
      exec c u = .next v ∧
      u.responses.length = s.responses.length + pre.length ∧
      v.responses = u.responses ++ [rsp] ∧
      run (pre.length + 1 + post.length) (s.present (pre ++ c :: post)) = .next t ∧
      t.inputs = s.inputs ∧
      t.responses = u.responses ++ rsp :: rs ∧ rs.length = post.length

/-- R74: the chunks of a message are `ceil(L/16)` pieces that concatenate to it, all but the last of 16 bytes, the last of
1 to 16. -/
def Obligations.ChunksPartitionMessage : Prop :=
  ∀ msg : List Byte,
    (chunks msg).flatten = msg ∧
    (chunks msg).length = (msg.length + 15) / 16 ∧
    (∀ c ∈ chunks msg, 1 ≤ c.length ∧ c.length ≤ 16) ∧
    (∀ c ∈ (chunks msg).dropLast, c.length = 16) ∧
    (∀ c, (chunks msg).getLast? = some c → c.length = if msg.length % 16 = 0 then 16 else msg.length % 16) ∧
    (∀ j c, (chunks msg)[j]? = some c → c = (msg.take (min (16 * (j + 1)) msg.length)).drop (16 * j))

/-- R79: (b) `TAG msg` from any state whose slot holds the instance of a 32-byte key, whatever `ACC` holds, answers OK to
every command and returns `poly1305(key, msg)`; (c) it leaves the instance in place and `ACC = 0`; (a) `MAC key, msg` does
so from any state. -/
def Obligations.TagAndMacComputePoly1305 : Prop :=
  ∀ (key msg : List Byte) (s : State), key.length = 32 →
    (s.kv = true → s.r.toNat = leInt (key.take 16) &&& clampMask.toNat →
      s.s.toNat = leInt (key.drop 16) →
      ∃ (t : State) (tag : Half),
        run (tagCommands msg).length (s.present (tagCommands msg)) = .next t ∧
        t.responses = s.responses ++ List.replicate ((chunks msg).length + 1) ⟨.ok, false, 0⟩
          ++ [⟨.ok, true, tag⟩] ∧
        (⟨.ok, true, tag⟩ : Response).tagBytes = poly1305 key msg ∧
        t.kv = true ∧ t.r = s.r ∧ t.s = s.s ∧ t.acc = 0 ∧ t.inputs = s.inputs) ∧
    (∃ (t : State) (tag : Half),
      run (macCommands key msg).length (s.present (macCommands key msg)) = .next t ∧
      t.responses = s.responses ++ List.replicate ((chunks msg).length + 2) ⟨.ok, false, 0⟩
        ++ [⟨.ok, true, tag⟩] ∧
      (⟨.ok, true, tag⟩ : Response).tagBytes = poly1305 key msg ∧
      t.kv = true ∧ t.r.toNat = leInt (key.take 16) &&& clampMask.toNat ∧
      t.s.toNat = leInt (key.drop 16) ∧ t.acc = 0 ∧ t.inputs = s.inputs)

/-- R76: with a key of any other length, even one too long for the length field (R42), `MAC` answers InvalidKeyLength to
its `KEY` and NoKey to every later command, and the block stays empty. -/
def Obligations.MacWithBadKeyAnswersNoKey : Prop :=
  ∀ (key msg : List Byte) (s : State), key.length ≠ 32 →
    ∃ t, run (macCommands key msg).length (s.present (macCommands key msg)) = .next t ∧
      t.responses = s.responses ++ ⟨.invalidKeyLength, false, 0⟩
        :: List.replicate ((chunks msg).length + 2) ⟨.noKey, false, 0⟩ ∧
      t.kv = false ∧ t.r = 0 ∧ t.s = 0 ∧ t.acc = 0

/-- R77: `ACC` is 0 at the `FINAL` of an empty message, and the tag is `S`, the second key half byte for byte; `R` and
the old `ACC` play no part. -/
def Obligations.EmptyMessageTagIsSecondHalf : Prop :=
  ∀ (key : List Byte) (s : State), key.length = 32 → s.kv = true → s.s.toNat = leInt (key.drop 16) →
    tagCommands [] = [.start 0 0, .final 0 0] ∧
    ∃ (u t : State) (tag : Half),
      run 1 (s.present (tagCommands [])) = .next (u.present [.final 0 0]) ∧ u.acc = 0 ∧
      tag = s.s ∧
      run 2 (s.present (tagCommands [])) = .next t ∧
      t.responses = s.responses ++ [⟨.ok, false, 0⟩, ⟨.ok, true, tag⟩] ∧
      (⟨.ok, true, tag⟩ : Response).tagBytes = key.drop 16

/-- R82 with the closed form of R80: any sequence of legal `BLOCK`s from a cleared accumulator, whatever their lengths and
their unused lanes, and then a `FINAL`, returns the tag of the closed form over their chunk values. -/
def Obligations.BlocksFollowClosedForm : Prop :=
  ∀ (blocks : List (LenField × Payload)) (s : State),
    s.kv = true → s.acc = 0 → (∀ b ∈ blocks, 1 ≤ b.1.toNat ∧ b.1.toNat ≤ 16) →
    let cs := blocks.map (fun b => Instr.block b.1 b.2) ++ [.final 0 0]
    let acc := closedForm s.r.toNat (blocks.map fun b => blockValue b.2 b.1.toNat) % prime
    ∃ (t : State) (tag : Half),
      run cs.length (s.present cs) = .next t ∧
      t.responses = s.responses ++ List.replicate blocks.length ⟨.ok, false, 0⟩ ++ [⟨.ok, true, tag⟩] ∧
      tag.toNat = (acc + s.s.toNat) % 2 ^ 128 ∧ t.acc = 0

/-- R81: after one `KEY` any number of `TAG` sequences each return `poly1305` of their own message, independent of the
others. -/
def Obligations.ReuseGivesIndependentTags : Prop :=
  ∀ (key : List Byte) (msgs : List (List Byte)) (s : State),
    key.length = 32 → s.kv = true →
    s.r.toNat = leInt (key.take 16) &&& clampMask.toNat → s.s.toNat = leInt (key.drop 16) →
    ∃ t, run (msgs.flatMap tagCommands).length (s.present (msgs.flatMap tagCommands)) = .next t ∧
      (t.responses.filter (·.tagValid)).map Response.tagBytes
        = (s.responses.filter (·.tagValid)).map Response.tagBytes ++ msgs.map (poly1305 key)

/-- R72: of two `FINAL`s in a row the second sees `ACC = 0` and returns `S`. -/
def Obligations.SecondFinalReturnsS : Prop :=
  ∀ (d d' : Payload) (s : State), s.kv = true →
    ∃ (t u : State) (tag : Half),
      exec (.final 0 d) s = .next t ∧ exec (.final 0 d') t = .next u ∧
      u.responses = s.responses ++ [⟨.ok, true, tag⟩, ⟨.ok, true, s.s⟩]

/-- The sentinel (R83): chunks that differ have different chunk values, in particular chunks that differ only by trailing
zero bytes. -/
def Obligations.SentinelSeparatesChunks : Prop :=
  (∀ c c' : List Byte, chunkValue c = chunkValue c' → c = c') ∧
  (∀ (c : List Byte) (k : Nat), 0 < k → chunkValue (c ++ List.replicate k 0) ≠ chunkValue c)

/-! ### The ports -/

/-- Reset at the ports (R98, R99): an edge with `rst_n = 0` leaves the reset state from every state, drops the command in
flight and its response, and drives `cmd_ready = 0` and `rsp_valid = 0`; the first edge with `rst_n = 1` accepts
nothing, and the block is ready after it. That it is ready then, and that the responses start afresh, are the model's,
log entries 4 and 2. -/
def Obligations.ResetEdgeAtThePorts : Prop :=
  ∀ (L : Latencies) (p : PortState) (i j : PortIn), i.rstN = false → j.rstN = true →
    (p.edge L i).core = State.reset ∧ (p.edge L i).taken = [] ∧
    (p.edge L i).cmdReady = false ∧ (p.edge L i).rspValid = false ∧
    (p.edge L i).accepts j = none ∧
    ((p.edge L i).edge L j).core = State.reset ∧ ((p.edge L i).edge L j).cmdReady = true ∧
    ((p.edge L i).edge L j).rspValid = false

/-- A response presented is held unchanged until an edge with `rsp_ready = 1`, where it is taken (R102); the block is then
ready for the next command (log entry 4). -/
def Obligations.ResponseHeldUntilTaken : Prop :=
  ∀ (L : Latencies) (p : PortState) (i : PortIn) (rsp : Response),
    p.presented = some rsp → i.rstN = true →
    p.rspWord = some (responseWord rsp) ∧
    (i.rspReady = false → p.edge L i = p) ∧
    (i.rspReady = true →
      (p.edge L i).taken = p.taken ++ [rsp] ∧ (p.edge L i).rspValid = false ∧ (p.edge L i).cmdReady = true)

/-- R103 with R101: from the acceptance of a command until its response has been taken `cmd_ready` is 0, no command is
accepted, and the architectural state stays as the acceptance left it. That the acceptance itself writes the state is
log entry 4. -/
def Obligations.OneCommandInFlight : Prop :=
  (∀ (L : Latencies) (p : PortState) (i : PortIn) (w : CmdWord), p.accepts i = some w →
    ∃ t, exec (decode w) p.core = .next t ∧ (p.edge L i).core = t ∧
      (p.edge L i).cmdReady = false ∧ outstanding (p.edge L i) = [t.newest]) ∧
  (∀ (L : Latencies) (p : PortState) (i : PortIn) (rsp : Response),
    outstanding p = [rsp] → i.rstN = true →
    p.cmdReady = false ∧ p.accepts i = none ∧ (p.edge L i).core = p.core ∧
    (outstanding (p.edge L i) = [rsp] ∨
      (p.presented = some rsp ∧ i.rspReady = true ∧ (p.edge L i).taken = p.taken ++ [rsp])))

/-- R109: the response of a command is first presented exactly its latency after its acceptance, whatever the host does
meanwhile short of reset; the latency is that of its opcode if it answers OK, and `LAT_ERR` otherwise. How the edges are
counted is log entry 4. -/
def Obligations.LatencyIsExact : Prop :=
  ∀ (L : Latencies) (p : PortState) (i : PortIn) (w : CmdWord) (js : List PortIn) (t : State),
    L.Positive → p.accepts i = some w → (∀ j ∈ js, j.rstN = true) →
    exec (decode w) p.core = .next t →
    (js.length + 1 < latencyOf L (decode w) t.newest.status →
      ((p.edge L i).edges L js).presented = none) ∧
    (js.length + 1 = latencyOf L (decode w) t.newest.status →
      ((p.edge L i).edges L js).presented = some t.newest)

/-- R33 and R103 at the ports: every edge keeps the responses given equal to those taken and the one outstanding, in
order; so do the ports in reset. That a response is given at the accepting edge is log entry 4, and both lists are the
model's own, log entry 2. -/
def Obligations.PortsKeepResponseOrder : Prop :=
  PortsInOrder PortState.reset ∧
  ∀ (L : Latencies) (p : PortState) (i : PortIn), PortsInOrder p → PortsInOrder (p.edge L i)

/-- The ports implement the transaction level: whatever the host drives, over any number of edges, the architectural
state is the one a run over the accepted commands and the resets, in order, reaches. The equality holds after every
edge, also with a command in flight, because the port machine writes a command's effect at the edge that accepts it,
which is log entry 4: R103 only has the effect complete before the next acceptance. -/
def Obligations.PortsRefineTransactions : Prop :=
  ∀ (L : Latencies) (is : List PortIn) (p : PortState), p.core.inputs = [] →
    run (p.acts L is).length { p.core with inputs := p.acts L is }
      = .next (p.edges L is).core

/-- `cmd_ready` and `rsp_valid` do not depend on `R`, `S`, `ACC` or a payload: from two ports in the same phase but for
the response in flight, with the same `KV` and driven alike but for the payloads, they stay equal at every edge. R110 says
so of the latencies. That `cmd_ready`, and so when later commands are accepted and answered, is independent too rests on
the model's being ready whenever it is idle, log entry 4. -/
def Obligations.TimingIgnoresSecrets : Prop :=
  ∀ (L : Latencies) (p p' : PortState) (is : List (PortIn × PortIn)),
    p.core.kv = p'.core.kv → timingOf p.phase = timingOf p'.phase →
    (∀ ij ∈ is, ij.1.rstN = ij.2.rstN ∧ ij.1.rspReady = ij.2.rspReady ∧
      ij.1.cmd.map header = ij.2.cmd.map header) →
    (p.edges L (is.map (·.1))).cmdReady = (p'.edges L (is.map (·.2))).cmdReady ∧
    (p.edges L (is.map (·.1))).rspValid = (p'.edges L (is.map (·.2))).rspValid ∧
    (p.edges L (is.map (·.1))).core.kv = (p'.edges L (is.map (·.2))).core.kv
end

