-- ==== Sys2Proof/Laws/Encoding.lean ====
section
/-! SUPPORT. The command word and the response word as numbers and bit by bit (30_encoding.md R38, R46): what a proof
about an encoding needs in place of the concatenation. -/

namespace Sys2Proof

/-- The command word as a number: the header above 256 bits of payload (R38). -/
theorem encode_toNat (i : Instr) :
    (encode i).toNat = ((opOf i).toNat * 2 ^ 6 + i.len.toNat) * 2 ^ 256 + i.data.toNat := by
  have := i.len.isLt
  have := i.data.isLt
  rw [encode, BitVec.toNat_cast, BitVec.toNat_append, BitVec.toNat_append,
    ← Nat.shiftLeft_add_eq_or_of_lt (by omega), ← Nat.shiftLeft_add_eq_or_of_lt (by omega),
    Nat.shiftLeft_eq, Nat.shiftLeft_eq]

/-- The bits of a command word (R38). -/
theorem encode_getLsbD (i : Instr) (j : Nat) :
    (encode i).getLsbD j =
      if j < 256 then i.data.getLsbD j
      else if j < 262 then i.len.getLsbD (j - 256)
      else (opOf i).getLsbD (j - 262) := by
  rw [encode, BitVec.getLsbD_cast, BitVec.getLsbD_append, BitVec.getLsbD_append]
  by_cases h : j < 256
  · rw [if_pos h, if_pos h]
  · rw [if_neg h, if_neg h, Nat.sub_sub]
    by_cases h' : j < 262
    · rw [if_pos (by omega), if_pos h']
    · rw [if_neg (by omega), if_neg h']

/-- The three fields of a word, whichever command it decodes to. -/
theorem opOf_decode (w : CmdWord) : opOf (decode w) = opField w := by
  unfold decode
  generalize opField w = op
  split
  · simp_all [opOf]
  split
  · simp_all [opOf]
  split
  · simp_all [opOf]
  · revert op
    simp only [opOf]
    decide

theorem len_decode (w : CmdWord) : (decode w).len = lenField w := by
  unfold decode
  split
  · rfl
  split
  · rfl
  split <;> rfl

theorem data_decode (w : CmdWord) : (decode w).data = dataField w := by
  unfold decode
  split
  · rfl
  split
  · rfl
  split <;> rfl

namespace Machine

/-- The response word as a number (R46). -/
theorem responseWord_toNat (rsp : Response) :
    (responseWord rsp).toNat
      = ((statusCode rsp.status).toNat * 2 + rsp.tagValid.toNat) * 2 ^ 128 + rsp.tag.toNat := by
  have := rsp.tag.isLt
  have : rsp.tagValid.toNat < 2 ^ 1 := by cases rsp.tagValid <;> decide
  rw [responseWord, BitVec.toNat_cast, BitVec.toNat_append, BitVec.toNat_append, BitVec.toNat_ofBool,
    ← Nat.shiftLeft_add_eq_or_of_lt (by omega), ← Nat.shiftLeft_add_eq_or_of_lt (by omega),
    Nat.shiftLeft_eq, Nat.shiftLeft_eq, Nat.pow_one]

end Machine

end Sys2Proof
end

