-- ==== Sys2Proof/Laws/State.lean ====
section
/-! SUPPORT. One lemma per field per update of State, each true by unfolding, so that no later proof unfolds an update. -/

namespace Sys2Proof.Machine

@[simp] theorem State.setAcc_kv (s : State) (v : Residue) : (s.setAcc v).kv = s.kv := rfl
@[simp] theorem State.setAcc_r (s : State) (v : Residue) : (s.setAcc v).r = s.r := rfl
@[simp] theorem State.setAcc_s (s : State) (v : Residue) : (s.setAcc v).s = s.s := rfl
@[simp] theorem State.setAcc_acc (s : State) (v : Residue) : (s.setAcc v).acc = v := rfl
@[simp] theorem State.setAcc_inputs (s : State) (v : Residue) : (s.setAcc v).inputs = s.inputs := rfl
@[simp] theorem State.setAcc_responses (s : State) (v : Residue) : (s.setAcc v).responses = s.responses := rfl

@[simp] theorem State.loadKey_kv (s : State) (a b : Half) : (s.loadKey a b).kv = true := rfl
@[simp] theorem State.loadKey_r (s : State) (a b : Half) : (s.loadKey a b).r = a := rfl
@[simp] theorem State.loadKey_s (s : State) (a b : Half) : (s.loadKey a b).s = b := rfl
@[simp] theorem State.loadKey_acc (s : State) (a b : Half) : (s.loadKey a b).acc = 0 := rfl
@[simp] theorem State.loadKey_inputs (s : State) (a b : Half) : (s.loadKey a b).inputs = s.inputs := rfl
@[simp] theorem State.loadKey_responses (s : State) (a b : Half) : (s.loadKey a b).responses = s.responses := rfl

@[simp] theorem State.wipe_kv (s : State) : s.wipe.kv = false := rfl
@[simp] theorem State.wipe_r (s : State) : s.wipe.r = 0 := rfl
@[simp] theorem State.wipe_s (s : State) : s.wipe.s = 0 := rfl
@[simp] theorem State.wipe_acc (s : State) : s.wipe.acc = 0 := rfl
@[simp] theorem State.wipe_inputs (s : State) : s.wipe.inputs = s.inputs := rfl
@[simp] theorem State.wipe_responses (s : State) : s.wipe.responses = s.responses := rfl

@[simp] theorem State.respond_kv (s : State) (st : Status) (b : Bool) (tag : Half) :
    (s.respond st b tag).kv = s.kv := rfl
@[simp] theorem State.respond_r (s : State) (st : Status) (b : Bool) (tag : Half) :
    (s.respond st b tag).r = s.r := rfl
@[simp] theorem State.respond_s (s : State) (st : Status) (b : Bool) (tag : Half) :
    (s.respond st b tag).s = s.s := rfl
@[simp] theorem State.respond_acc (s : State) (st : Status) (b : Bool) (tag : Half) :
    (s.respond st b tag).acc = s.acc := rfl
@[simp] theorem State.respond_inputs (s : State) (st : Status) (b : Bool) (tag : Half) :
    (s.respond st b tag).inputs = s.inputs := rfl
@[simp] theorem State.respond_responses (s : State) (st : Status) (b : Bool) (tag : Half) :
    (s.respond st b tag).responses = s.responses ++ [{ status := st, tagValid := b, tag := tag }] := rfl

@[simp] theorem State.applyReset_kv (s : State) : s.applyReset.kv = false := rfl
@[simp] theorem State.applyReset_r (s : State) : s.applyReset.r = 0 := rfl
@[simp] theorem State.applyReset_s (s : State) : s.applyReset.s = 0 := rfl
@[simp] theorem State.applyReset_acc (s : State) : s.applyReset.acc = 0 := rfl
@[simp] theorem State.applyReset_inputs (s : State) : s.applyReset.inputs = s.inputs := rfl
@[simp] theorem State.applyReset_responses (s : State) : s.applyReset.responses = [] := rfl

end Sys2Proof.Machine
end

