-- ==== Sys2Proof/Laws/Ops.lean ====
section
/-! SUPPORT. What each shared operation and each command can do, said once: a proof about a command cites these and
unfolds nothing. -/

namespace Sys2Proof.Machine

/-- Raising BadLength or NoKey only answers (R88, R89). -/
theorem State.raise_badLength (s : State) : s.raise .badLength = s.respond .badLength false 0 := rfl

theorem State.raise_noKey (s : State) : s.raise .noKey = s.respond .noKey false 0 := rfl

/-- Raising InvalidKeyLength wipes and answers (R87). -/
theorem State.raise_invalidKeyLength (s : State) :
    s.raise .invalidKeyLength = s.wipe.respond .invalidKeyLength false 0 := rfl

/-- All that the checks of `START`, `BLOCK` and `FINAL` can do (R90). -/
theorem State.checked_cases (s : State) (legal : Bool) (effect : State → State) :
    (legal = false ∧ s.checked legal effect = .next (s.respond .badLength false 0)) ∨
    (legal = true ∧ s.kv = false ∧ s.checked legal effect = .next (s.respond .noKey false 0)) ∨
    (legal = true ∧ s.kv = true ∧ s.checked legal effect = .next (effect s)) := by
  cases legal with
  | false => exact .inl ⟨rfl, rfl⟩
  | true =>
    cases h : s.kv with
    | false => exact .inr (.inl ⟨rfl, rfl, by simp [State.checked, State.hasKey, h, State.raise_noKey]⟩)
    | true => exact .inr (.inr ⟨rfl, rfl, by simp [State.checked, State.hasKey, h]⟩)

theorem startLenLegal_iff (len : LenField) : startLenLegal len = true ↔ len.toNat = 0 := by
  simp [startLenLegal, ← BitVec.toNat_inj]

theorem finalLenLegal_iff (len : LenField) : finalLenLegal len = true ↔ len.toNat = 0 := by
  simp [finalLenLegal, ← BitVec.toNat_inj]

theorem keyLenLegal_iff (len : LenField) : keyLenLegal len = true ↔ len.toNat = 32 := by
  simp [keyLenLegal, ← BitVec.toNat_inj]

theorem blockLenLegal_iff (len : LenField) : blockLenLegal len = true ↔ 1 ≤ len.toNat ∧ len.toNat ≤ 16 := by
  simp [blockLenLegal, ← BitVec.toNat_inj]
  omega

/-- All that a `KEY` can do (R64). -/
theorem execKey_cases (len : LenField) (data : Payload) (s : State) :
    (len.toNat ≠ 32 ∧ execKey len data s = .next (s.wipe.respond .invalidKeyLength false 0)) ∨
    (len.toNat = 32 ∧
      execKey len data s = .next ((s.loadKey (clamp (keyLow data)) (keyHigh data)).respond .ok false 0)) := by
  cases h : keyLenLegal len with
  | false =>
    refine .inl ⟨fun hl => ?_, by simp [execKey, h, State.raise_invalidKeyLength]⟩
    simp [(keyLenLegal_iff len).2 hl] at h
  | true => exact .inr ⟨(keyLenLegal_iff len).1 h, by simp [execKey, h, State.respondOk]⟩

end Sys2Proof.Machine
end

