-- ==== Sys2Proof/Laws/PerInstr.lean ====
section
/-! SUPPORT. Statements made command by command. LegalHeader: a command is well-formed exactly when the header of its word
is one of the 19 legal headers (30_encoding.md R41, R44; "legal_headers" in spec/opcode_table.json). -/

namespace Sys2Proof.Laws

/-- The 19 legal headers of R41. -/
def legalHeaders : List (BitVec 8) :=
  [0x00, 0x60, 0x81, 0x82, 0x83, 0x84, 0x85, 0x86, 0x87, 0x88, 0x89, 0x8a, 0x8b, 0x8c, 0x8d, 0x8e, 0x8f, 0x90, 0xc0]

/-- The header of a command's word is its opcode and its length; the payload does not enter (R38). -/
theorem header_encode (i : Instr) : header (encode i) = opOf i ++ i.len := by
  apply BitVec.eq_of_toNat_eq
  have hl := i.len.isLt
  have hd := i.data.isLt
  have ho := (opOf i).isLt
  rw [header, BitVec.extractLsb'_toNat, encode_toNat, Nat.shiftRight_eq_div_pow, BitVec.toNat_append,
    ← Nat.shiftLeft_add_eq_or_of_lt hl, Nat.shiftLeft_eq]
  omega

namespace LegalHeader

def Statement (i : Instr) : Prop := WellFormed i = true ↔ header (encode i) ∈ legalHeaders

theorem start (len : LenField) (data : Payload) : Statement (.start len data) := by
  unfold Statement
  rw [header_encode]
  revert len
  simp only [WellFormed, opOf, Instr.len]
  decide

theorem key (len : LenField) (data : Payload) : Statement (.key len data) := by
  unfold Statement
  rw [header_encode]
  revert len
  simp only [WellFormed, opOf, Instr.len]
  decide

theorem block (len : LenField) (data : Payload) : Statement (.block len data) := by
  unfold Statement
  rw [header_encode]
  revert len
  simp only [WellFormed, opOf, Instr.len]
  decide

theorem final (len : LenField) (data : Payload) : Statement (.final len data) := by
  unfold Statement
  rw [header_encode]
  revert len
  simp only [WellFormed, opOf, Instr.len]
  decide

end LegalHeader

end Sys2Proof.Laws
end

