-- ==== Sys2Proof/Laws/Run.lean ====
section
/-! SUPPORT. Runs: how one unfolds, how two follow each other, and that they are the host's runs. -/

namespace Sys2Proof.Machine

theorem run_zero (s : State) : run 0 s = .next s := rfl

/-- A run whose first step is known. -/
theorem run_of_step {n : Nat} {s t : State} (h : step s = .next t) : run (n + 1) s = run n t := by
  simp only [run, h]

/-- A run of `a + b` steps whose first `a` are known. -/
theorem run_add {a b : Nat} {s t : State} (h : run a s = .next t) : run (a + b) s = run b t := by
  induction a generalizing s with
  | zero =>
    cases h
    rw [Nat.zero_add]
  | succ a ih =>
    rw [Nat.add_right_comm]
    simp only [run] at h ⊢
    cases hs : step s with
    | next u =>
      simp only [hs] at h ⊢
      exact ih h
    | fault r => simp [hs] at h
    | refused r => simp [hs] at h

theorem hostRun_next (M : Host.Core) (n : Nat) {s t : M.State} (h : M.step s = .next t) :
    M.run (n + 1) s = M.run n t := by
  simp only [Host.Core.run, h]

theorem hostRun_fault (M : Host.Core) (n : Nat) {s : M.State} {r : M.Fault} (h : M.step s = .fault r) :
    M.run (n + 1) s = .fault r := by
  simp only [Host.Core.run, h]

theorem hostRun_refused (M : Host.Core) (n : Nat) {s : M.State} {r : M.Refusal} (h : M.step s = .refused r) :
    M.run (n + 1) s = .refused r := by
  simp only [Host.Core.run, h]

/-- The model's runs are those of the host's interface. -/
theorem run_eq_core (n : Nat) (s : State) : run n s = Sys2Proof.core.run n s := by
  induction n generalizing s with
  | zero => rfl
  | succ n ih =>
    simp only [run]
    cases h : step s with
    | next t => exact (ih t).trans (hostRun_next Sys2Proof.core n h).symm
    | fault r => exact (hostRun_fault Sys2Proof.core n h).symm
    | refused r => exact (hostRun_refused Sys2Proof.core n h).symm

theorem State.present_nil (s : State) : s.present [] = s := rfl

/-- What a step does to the host acts (R9, R98, R99, R112): everything it can do. -/
theorem step_cases {s t : State} (h : step s = .next t) :
    (s.inputs = [] ∧ t = s) ∨
    (∃ w rest, s.inputs = .command w :: rest ∧ exec (decode w) { s with inputs := rest } = .next t) ∨
    (∃ rest, (s.inputs = .reset :: rest ∨ ∃ w, s.inputs = .resetDuring w :: rest) ∧
      t = { State.reset with inputs := rest }) := by
  unfold step at h
  split at h
  · cases h
    exact .inl ⟨by assumption, rfl⟩
  · exact .inr (.inl ⟨_, _, by assumption, h⟩)
  · cases h
    exact .inr (.inr ⟨_, .inl (by assumption), rfl⟩)
  · cases h
    exact .inr (.inr ⟨_, .inr ⟨_, by assumption⟩, rfl⟩)

end Sys2Proof.Machine
end

