-- ==== Sys2Proof/Laws/Units.lean ====
section
/-! SUPPORT. The ranges of the datapath units (40_datapath_units.md), one lemma per function, and the equations their
recursive definitions unfold by. -/

namespace Sys2Proof.Machine

theorem prime_value : Config.prime = 1361129467683753853853498429727072845819 := by decide

theorem prime_pos : 0 < Config.prime := by decide

/-- `P` fits the accumulator's width (R7). -/
theorem prime_lt_residue : Config.prime < 2 ^ 130 := by decide

theorem leInt_nil : leInt [] = 0 := rfl

theorem leInt_cons (b : Byte) (bs : List Byte) : leInt (b :: bs) = b.toNat + 256 * leInt bs := rfl

/-- R50: `le_int(b) <= 256^n - 1`. -/
theorem leInt_lt (b : List Byte) : leInt b < 256 ^ b.length := by
  induction b with
  | nil => simp [leInt]
  | cons x xs ih =>
    have := x.isLt
    simp only [leInt, List.length_cons, Nat.pow_succ]
    omega

theorem lanes_length (data : Payload) (n : Nat) : (lanes data n).length = n := by
  simp [lanes]

/-- R52: a chunk's value fits its bytes. -/
theorem chunkInt_lt (data : Payload) (n : Nat) : chunkInt data n < 2 ^ (8 * n) :=
  Nat.mod_lt _ (Nat.two_pow_pos _)

/-- R60: the multiplier's result is the canonical residue, never a merely congruent value. -/
theorem mulmod_lt (a b : Nat) : mulmod a b < Config.prime := Nat.mod_lt _ prime_pos

/-- The canonical residue fits the accumulator, so narrowing it loses nothing (R13, R60). -/
theorem mulmod_narrow (a b : Nat) : (BitVec.ofNat 130 (mulmod a b)).toNat = mulmod a b := by
  have := mulmod_lt a b
  have := prime_lt_residue
  simp only [BitVec.toNat_ofNat]
  exact Nat.mod_eq_of_lt (by omega)

/-- R63: the final sum fits the tag. -/
theorem finalAdd_lt (acc s : Nat) : finalAdd acc s < 2 ^ 128 := Nat.mod_lt _ (Nat.two_pow_pos _)

theorem finalAdd_narrow (acc s : Nat) : (BitVec.ofNat 128 (finalAdd acc s)).toNat = finalAdd acc s := by
  simp only [BitVec.toNat_ofNat]
  exact Nat.mod_eq_of_lt (finalAdd_lt acc s)

/-- R56: no cleared bit survives the clamp. -/
theorem clamp_masked (x : Half) : clamp x &&& ~~~Config.clampMask = 0 := by
  apply BitVec.eq_of_getLsbD_eq
  intro i hi
  show _ = (0#128).getLsbD i
  rw [clamp, BitVec.getLsbD_and, BitVec.getLsbD_and, BitVec.getLsbD_not, BitVec.getLsbD_zero]
  cases BitVec.getLsbD Config.clampMask i <;> simp

end Sys2Proof.Machine
end

