-- ==== Sys2Proof/Tests/Slice0.lean ====
section
/-! SUPPORT. The model's own tests. Expected results come from 95_test_vectors.md (the vector's id stands at each test) or
from the rule named; and, for every statement with hypotheses, a witness that meets them. -/

namespace Sys2Proof.Tests

open Sys2Proof.Machine Sys2Proof.Safety
open Sys2Proof.Config (Latencies)

/-! ### Well-formedness: one ill-formed term for each check (R44) -/

theorem test_wf_start : WellFormed (.start 1 0) = false := by decide
theorem test_wf_key_short : WellFormed (.key 31 0) = false := by decide
theorem test_wf_key_long : WellFormed (.key 33 0) = false := by decide
theorem test_wf_block_empty : WellFormed (.block 0 0) = false := by decide
theorem test_wf_block_long : WellFormed (.block 17 0) = false := by decide
theorem test_wf_final : WellFormed (.final 63 0) = false := by decide
theorem test_wf_legal : (WellFormed (.start 0 7) && WellFormed (.key 32 7) && WellFormed (.block 1 7)
    && WellFormed (.block 16 7) && WellFormed (.final 0 7)) = true := by decide

/-! ### Decoding: words written out bit by bit from R38 and R41, `op` then `len` then `data` -/

/-- The all-zero word (R41). -/
theorem test_decode_start : decode (0b00#2 ++ 0b000000#6 ++ 0#256) = .start 0 0 := by decide
/-- `START.len 63`, header 0x3f (V-A5). -/
theorem test_decode_start_len : decode (0b00#2 ++ 0b111111#6 ++ 0#256) = .start 63 0 := by decide
/-- `KEY`, header 0x60 (V-K2, V-K3). -/
theorem test_decode_key : decode (0b01#2 ++ 0b100000#6 ++ BitVec.allOnes 256) = .key 32 (BitVec.allOnes 256) := by decide
/-- `BLOCK 7570`, header 0x82 (V-B7). -/
theorem test_decode_block : decode (0b10#2 ++ 0b000010#6 ++ 0x7075#256) = .block 2 0x7075 := by decide
/-- `FINAL`, header 0xc0 (R41). -/
theorem test_decode_final : decode (0b11#2 ++ 0b000000#6 ++ 0#256) = .final 0 0 := by decide
/-- The all-ones word: `op = 3`, `len = 63` (V-N9). -/
theorem test_decode_all_ones : decode (BitVec.allOnes 264) = .final 63 (BitVec.allOnes 256) := by decide
/-- The opcode table's numbering (spec/opcode_table.json, "match" of `BLOCK`). -/
theorem test_decode_table : decodeTableWord 264 (0x80 * 2 ^ 256) = some (.block 0 0) := by decide
/-- 32 bytes are no command word (R37). -/
theorem test_decode_bytes_short :
    decodeBytes (List.replicate 32 0) = .error (.notOneCommandWord 32) := rfl

/-! ### The units -/

/-- V-P2. -/
theorem test_leInt : leInt [0x75, 0x70] = 0x7075 := by decide
/-- V-P9. -/
theorem test_lane : lane 0xdeadbeef7075 2 = 0xef := by decide
/-- V-P10. -/
theorem test_chunkInt : chunkInt 0xdeadbeef7075 3 = 0xef7075 := by decide
/-- V-V8. -/
theorem test_blockValue : blockValue (BitVec.allOnes 256) 16 = 2 ^ 129 - 1 := by decide
/-- V-P7. -/
theorem test_leBytes16 : leBytes16 0xa927010caf8b2bc2c6365130c11d06a8
    = [0xa8, 0x06, 0x1d, 0xc1, 0x30, 0x51, 0x36, 0xc6, 0xc2, 0x2b, 0x8b, 0xaf, 0x0c, 0x01, 0x27, 0xa9] := by decide
/-- V-C3. -/
theorem test_clamp : clamp 0xa806d542fe52447f336d555778bed685 = 0x0806d5400e52447c036d555408bed685 := by decide
/-- V-M10. -/
theorem test_mulmod : mulmod 0x7ffffffffffffffffffffffffffffffff 0xffffffffffffffffffffffffffffffff
    = 0x100000000000000000000000000000001 := by decide
/-- V-M9 through the reference reduction (R62). -/
theorem test_refReduce : refReduce (0x5fffffffffffffffffffffffffffffff9 * 0x0ffffffc0ffffffc0ffffffc0fffffff)
    = 0x207fffffe07fffffe07fffffe07fffffd := by decide
/-- V-F4: reducing modulo `P` first would give 5. -/
theorem test_finalAdd : finalAdd 0x3fffffffffffffffffffffffffffffffa 6 = 0 := by decide
/-- Response word of NoKey, and of OK with the tag of V-N10 (95_test_vectors.md, "How to read"). -/
theorem test_responseWord : responseWord ⟨.noKey, false, 0⟩ = 0x600000000000000000000000000000000#131 ∧
    responseWord ⟨.ok, true, 0x10⟩ = 0x100000000000000000000000000000010#131 := by decide
/-- V-L1, the source's own vector, on the function of R78. -/
theorem test_poly1305_source_vector :
    poly1305 (leBytes16 0xa806d542fe52447f336d555778bed685 ++ leBytes16 0x1bf54941aff6bf4afdb20dfb8a800301)
      (leBytes16 0x6f4620636968706172676f7470797243 ++ leBytes16 0x6f7247206863726165736552206d7572 ++ [0x75, 0x70])
    = leBytes16 0xa927010caf8b2bc2c6365130c11d06a8 := by decide
/-- R74, the lengths for `L = 34` and for `L = 32`. -/
theorem test_chunks : (chunks (List.replicate 34 0)).map List.length = [16, 16, 2] ∧
    (chunks (List.replicate 32 0)).map List.length = [16, 16] := by decide

/-! ### The commands, one step each -/

/-- The next state, if there is one. -/
def nextOf : Host.Outcome State Fault Refusal → Option State
  | .next s => some s
  | .fault _ => none
  | .refused _ => none

/-- A state with a key. -/
def keyed (r s : Half) (acc : Residue) : State :=
  { kv := true, r := r, s := s, acc := acc, inputs := [], responses := [] }

/-- The response given last. -/
def lastOf (o : Host.Outcome State Fault Refusal) : Option Response := (nextOf o).map State.newest

/-- The registers. -/
def regsOf (o : Host.Outcome State Fault Refusal) : Option (Bool × Half × Half × Residue) :=
  (nextOf o).map fun s => (s.kv, s.r, s.s, s.acc)

/-- V-K1. -/
theorem test_key : regsOf (exec (.key 32 0x1bf54941aff6bf4afdb20dfb8a800301a806d542fe52447f336d555778bed685) (keyed 2 7 9))
    = some (true, 0x0806d5400e52447c036d555408bed685, 0x1bf54941aff6bf4afdb20dfb8a800301, 0) := by decide
/-- V-K5: `len = 33` wipes. -/
theorem test_key_wipe : regsOf (exec (.key 33 (BitVec.allOnes 256)) (keyed 2 7 9)) = some (false, 0, 0, 0) ∧
    lastOf (exec (.key 33 (BitVec.allOnes 256)) (keyed 2 7 9)) = some ⟨.invalidKeyLength, false, 0⟩ := by decide
/-- V-A6: dirty lanes are ignored. -/
theorem test_start : regsOf (exec (.start 0 (BitVec.allOnes 256)) (keyed 2 7 5)) = some (true, 2, 7, 0) := by decide
/-- V-A5: BadLength before NoKey (R90). -/
theorem test_start_priority : lastOf (exec (.start 63 0) State.reset) = some ⟨.badLength, false, 0⟩ ∧
    lastOf (exec (.start 0 0) State.reset) = some ⟨.noKey, false, 0⟩ := by decide
/-- V-B7, the dirty word. -/
theorem test_block : regsOf (exec (decode 0x8200000000abcdef00000000000000000000000000000000000000deadbeef7075#264)
      (keyed 0x0806d5400e52447c036d555408bed685 7 0))
    = some (true, 0x0806d5400e52447c036d555408bed685, 7, 0x17dab8adcce0b919abba0cbfa53974938) := by decide
/-- V-B5: the largest operands. -/
theorem test_block_largest : regsOf (exec (.block 16 0xffffffffffffffffffffffffffffffff)
      (keyed 0x0ffffffc0ffffffc0ffffffc0fffffff 7 0x3fffffffffffffffffffffffffffffffa))
    = some (true, 0x0ffffffc0ffffffc0ffffffc0fffffff, 7, 0x207fffffe07fffffe07fffffe07fffffd) := by decide
/-- V-N3. -/
theorem test_final : (lastOf (exec (.final 0 0) (keyed 1 0xfffefdfcfbfaf9f8f7f6f5f4f3f2f1f0 0x012e09d1b19d7941210ce8b0907c58341))).map
      Response.tagBytes
    = some [0x31, 0x75, 0xb8, 0xfb, 0xfd, 0x80, 0xc5, 0x08, 0x0b, 0x8e, 0xd2, 0x15, 0x18, 0x9b, 0xdf, 0x12] := by decide
/-- V-N10: dirty lanes, the tag `9 + 7`, and `ACC` cleared. -/
theorem test_final_clears : lastOf (exec (.final 0 (BitVec.allOnes 256)) (keyed 2 7 9)) = some ⟨.ok, true, 0x10⟩ ∧
    regsOf (exec (.final 0 (BitVec.allOnes 256)) (keyed 2 7 9)) = some (true, 2, 7, 0) := by decide
/-- The command fetched as the table numbers it runs as the first step after reset (V-N6). -/
theorem test_withFetchWord : lastOf (step (State.reset.withFetchWord 264 (0xc0 * 2 ^ 256))) = some ⟨.noKey, false, 0⟩ := by
  decide

/-! ### Witnesses: the hypotheses of each statement are met -/

/-- A state with the host acts `l` before it. -/
def withInputs (s : State) (l : List HostAct) : State := { s with inputs := l }

theorem witness_ByteDecodeRoundTrip :
    (List.replicate 32 (0 : Byte)).length ≠ 33 ∧ (List.replicate 34 (0 : Byte)).length ≠ 33 := by decide
theorem witness_StepRunsDecodedCommand :
    (withInputs (keyed 2 7 9) [.command 0]).inputs = .command 0 :: [] ∧ decode 0 = .start 0 0 := by decide
theorem witness_QuiescentWithoutInput : (keyed 2 7 9).inputs = [] := by decide
theorem witness_HostResetReachesResetState :
    (withInputs (keyed 2 7 9) [.reset]).inputs = .reset :: [] ∧
    (withInputs (keyed 2 7 9) [.resetDuring 0]).inputs = .resetDuring 0 :: [] := by decide
/-- The boundaries of `KEY`'s length. -/
theorem witness_KeyLoadsOrWipes :
    (32 : LenField).toNat = 32 ∧ (31 : LenField).toNat ≠ 32 ∧ (33 : LenField).toNat ≠ 32 := by decide
theorem witness_StartClearsAccumulator :
    (1 : LenField).toNat ≠ 0 ∧ (0 : LenField).toNat = 0 ∧ State.reset.kv = false ∧ (keyed 2 7 9).kv = true := by decide
/-- The boundaries of `BLOCK`'s length. -/
theorem witness_BlockFoldsChunk :
    ((0 : LenField).toNat = 0 ∨ 16 < (0 : LenField).toNat) ∧ ((17 : LenField).toNat = 0 ∨ 16 < (17 : LenField).toNat) ∧
    (1 ≤ (1 : LenField).toNat ∧ (1 : LenField).toNat ≤ 16) ∧ (1 ≤ (16 : LenField).toNat ∧ (16 : LenField).toNat ≤ 16) ∧
    State.reset.kv = false ∧ (keyed 2 7 9).kv = true := by decide
theorem witness_FinalReturnsTag :
    (1 : LenField).toNat ≠ 0 ∧ (63 : LenField).toNat ≠ 0 ∧ (0 : LenField).toNat = 0 ∧
    State.reset.kv = false ∧ (keyed 2 7 9).kv = true := by decide
/-- A refused command that is no `KEY`. -/
theorem witness_FrameOfEveryCommand : ∃ t, exec (.final 1 0) (keyed 2 7 9) = .next t ∧
    isKey (.final 1 0) = false ∧ t.newest.status ≠ .ok := ⟨_, rfl, by decide⟩
theorem witness_EveryCommandAnswersOnce : ∃ t rsp, exec (.start 0 0) (keyed 2 7 9) = .next t ∧
    t.responses = (keyed 2 7 9).responses ++ [rsp] ∧ rsp.tagValid = false := ⟨_, ⟨.ok, false, 0⟩, rfl, by decide⟩
theorem witness_OkExactlyWhen : ∃ t rsp, exec (.final 0 0) (keyed 2 7 9) = .next t ∧
    t.responses = (keyed 2 7 9).responses ++ [rsp] ∧ rsp.status = .ok ∧ rsp.tagValid = true :=
  ⟨_, ⟨.ok, true, 0x10⟩, rfl, by decide⟩
theorem witness_InvalidKeyLengthAloneAmongErrorsWipes :
    (∃ t rsp, exec (.key 31 0) (keyed 2 7 9) = .next t ∧
      t.responses = (keyed 2 7 9).responses ++ [rsp] ∧ rsp.status = .invalidKeyLength) ∧
    (∃ t rsp, exec (.block 17 0) (keyed 2 7 9) = .next t ∧
      t.responses = (keyed 2 7 9).responses ++ [rsp] ∧ rsp.status = .badLength) ∧
    (∃ t rsp, exec (.block 16 0) State.reset = .next t ∧
      t.responses = State.reset.responses ++ [rsp] ∧ rsp.status = .noKey) :=
  ⟨⟨_, ⟨.invalidKeyLength, false, 0⟩, rfl, by decide⟩, ⟨_, ⟨.badLength, false, 0⟩, rfl, by decide⟩,
    ⟨_, ⟨.noKey, false, 0⟩, rfl, by decide⟩⟩
theorem witness_OnlyKeyAndResetChangeKeyValid :
    (∃ t, step (State.reset.withFetchWord 264 (0x60 * 2 ^ 256)) = .next t ∧
      (State.reset.withFetchWord 264 (0x60 * 2 ^ 256)).kv = false ∧ t.kv = true) ∧
    (∃ t, step (withInputs (keyed 2 7 9) [.command (0x5f#264 <<< 256)]) = .next t ∧
      (withInputs (keyed 2 7 9) [.command (0x5f#264 <<< 256)]).kv = true ∧ t.kv = false) ∧
    (∃ t, step (withInputs (keyed 2 7 9) [.reset]) = .next t ∧ t.kv = false) ∧
    (∃ t, step (withInputs (keyed 2 7 9) [.resetDuring 0]) = .next t ∧ t.kv = false) ∧
    (31 : LenField) ≠ 32 ∧ isKey (.block 1 0) = false ∧ State.reset.kv = false :=
  ⟨⟨_, rfl, by decide⟩, ⟨_, rfl, by decide⟩, ⟨_, rfl, by decide⟩, ⟨_, rfl, by decide⟩, by decide⟩
/-- A keyed state with a largest accumulator meets the invariants and steps. -/
theorem witness_StepKeepsInvariants :
    StateInv (withInputs (keyed 4 7 0x3fffffffffffffffffffffffffffffffa) [.command (0x81#264 <<< 256)]) ∧
    ∃ t, step (withInputs (keyed 4 7 0x3fffffffffffffffffffffffffffffffa) [.command (0x81#264 <<< 256)]) = .next t :=
  ⟨by decide, _, rfl⟩
theorem witness_StepKeepsResponsesClean :
    CleanResponses { keyed 2 7 9 with responses := [⟨.ok, true, 5⟩], inputs := [.command (0xc0#264 <<< 256)] } ∧
    ∃ t, step { keyed 2 7 9 with responses := [⟨.ok, true, 5⟩], inputs := [.command (0xc0#264 <<< 256)] } = .next t :=
  ⟨by decide, _, rfl⟩
theorem witness_WidthsHoldEveryValue :
    StateInv (keyed 0x0ffffffc0ffffffc0ffffffc0fffffff 7 0x3fffffffffffffffffffffffffffffffa) ∧
    (16 : LenField).toNat ≤ 16 := by decide
theorem witness_UnusedLanesIgnored :
    (63 : LenField).toNat ≠ 32 ∧ lanes 0x7075 (2 : LenField).toNat = lanes 0xdeadbeef7075 (2 : LenField).toNat := by decide
theorem witness_KeyForgetsThePast :
    State.reset.inputs = (keyed 2 7 9).inputs ∧ State.reset.responses = (keyed 2 7 9).responses := by decide
/-- Two keys and accumulators, one command that is no `FINAL`, one step. -/
theorem witness_NoTagRequestedNothingRevealed :
    (withInputs (keyed 2 7 9) [.command 0]).kv = (withInputs (keyed 4 8 1) [.command 0]).kv ∧
    (∀ w, HostAct.command w ∈ (withInputs (keyed 2 7 9) [.command 0]).inputs → isFinal (decode w) = false) ∧
    (∃ t, run 1 (withInputs (keyed 2 7 9) [.command 0]) = .next t) ∧
    (∃ t, run 1 (withInputs (keyed 4 8 1) [.command 0]) = .next t) := by
  refine ⟨rfl, fun w h => ?_, ⟨_, rfl⟩, ⟨_, rfl⟩⟩
  simp only [withInputs, List.mem_singleton, HostAct.command.injEq] at h
  subst h
  decide
theorem witness_NoOkWithoutAKey :
    (withInputs State.reset [.command 0]).kv = false ∧
    (∀ rsp ∈ (withInputs State.reset [.command 0]).responses, rsp.status ≠ .ok) ∧
    (∀ w data, HostAct.command w ∈ (withInputs State.reset [.command 0]).inputs → decode w ≠ .key 32 data) ∧
    (∃ t, run 1 (withInputs State.reset [.command 0]) = .next t) := by
  refine ⟨rfl, by decide, fun w data h => ?_, _, rfl⟩
  simp only [withInputs, List.mem_singleton, HostAct.command.injEq] at h
  subst h
  have hd : decode 0 = .start 0 0 := by decide
  rw [hd]
  exact Instr.noConfusion
theorem witness_ReferenceReductionIsMulmod :
    2 ^ 258 + 2 ^ 130 < 2 ^ 259 ∧ 2 ^ 131 - 1 < 2 ^ 131 ∧ 2 ^ 128 - 1 < 2 ^ 128 := by decide
theorem witness_ClampByBitAndByte : 0 < 128 ∧ 127 < 128 ∧ 0 < 16 ∧ 15 < 16 ∧ 0 < 4 ∧ 3 < 4 := by decide
theorem witness_PackerRoundTrip :
    (leBytes16 5).length = 16 ∧ 2 ^ 128 - 1 < 2 ^ 128 ∧ (leBytes16 5 ++ leBytes16 6).length = 32 := by decide
theorem witness_BlockValueSetsSentinel : (1 ≤ 1 ∧ 1 ≤ 16) ∧ (1 ≤ 16 ∧ 16 ≤ 16) := by decide
theorem witness_FinalAddIsLowBits : Config.prime - 1 < Config.prime ∧ 2 ^ 128 - 1 < 2 ^ 128 := by decide
theorem witness_ChunksPartitionMessage :
    (chunks [1, 2])[0]? = some [1, 2] ∧ (chunks (List.replicate 17 1)).getLast? = some [1] ∧
    (chunks (List.replicate 16 1)).getLast? = some (List.replicate 16 1) ∧
    List.replicate 16 1 ∈ (chunks (List.replicate 17 1)).dropLast := by decide
/-- A 32-byte key and the state that holds its instance (R = 4, S = 6), with an old accumulator. -/
theorem witness_TagAndMacComputePoly1305 :
    (leBytes16 4 ++ leBytes16 6).length = 32 ∧ (keyed 4 6 9).kv = true ∧
    (keyed 4 6 9).r.toNat = leInt ((leBytes16 4 ++ leBytes16 6).take 16) &&& Config.clampMask.toNat ∧
    (keyed 4 6 9).s.toNat = leInt ((leBytes16 4 ++ leBytes16 6).drop 16) := by decide
/-- The same state meets the hypotheses of reuse and of the empty message. -/
theorem witness_ReuseGivesIndependentTags :
    (leBytes16 4 ++ leBytes16 6).length = 32 ∧ (keyed 4 6 0).kv = true ∧
    (keyed 4 6 0).r.toNat = leInt ((leBytes16 4 ++ leBytes16 6).take 16) &&& Config.clampMask.toNat ∧
    (keyed 4 6 0).s.toNat = leInt ((leBytes16 4 ++ leBytes16 6).drop 16) := by decide
theorem witness_EmptyMessageTagIsSecondHalf :
    (leBytes16 4 ++ leBytes16 6).length = 32 ∧ (keyed 1 6 9).kv = true ∧
    (keyed 1 6 9).s.toNat = leInt ((leBytes16 4 ++ leBytes16 6).drop 16) := by decide
/-- 31, 33, none, and 96, whose low six bits are 32. -/
theorem witness_MacWithBadKeyAnswersNoKey :
    (List.replicate 31 (0 : Byte)).length ≠ 32 ∧ (List.replicate 33 (0 : Byte)).length ≠ 32 ∧
    ([] : List Byte).length ≠ 32 ∧ (List.replicate 96 (0 : Byte)).length ≠ 32 := by
  simp only [List.length_replicate, List.length_nil]
  decide
theorem witness_BlocksFollowClosedForm :
    (keyed 2 7 0).kv = true ∧ (keyed 2 7 0).acc = 0 ∧
    ∀ b ∈ [((1 : LenField), (0x41 : Payload)), (16, 0x42)], 1 ≤ b.1.toNat ∧ b.1.toNat ≤ 16 :=
  ⟨rfl, rfl, by simp⟩
theorem witness_SecondFinalReturnsS : (keyed 2 7 9).kv = true := by decide
theorem witness_SentinelSeparatesChunks : chunkValue [0x41] = chunkValue [0x41] ∧ 0 < 15 := by decide

/-! ### Witnesses at the ports -/

/-- Latencies of 2 cycles, 1 for an error. -/
def lat : Latencies := { key := 2, start := 2, block := 2, final := 2, err := 1 }

/-- The ports, idle, with a key. -/
def idlePort : PortState := { core := keyed 2 7 9, phase := .idle, taken := [] }

/-- An edge that presents a command word. -/
def presenting (w : CmdWord) : PortIn := { rstN := true, cmd := some w, rspReady := false }

/-- An edge at which the host is ready for a response. -/
def ready : PortIn := { rstN := true, cmd := none, rspReady := true }

/-- A `FINAL` accepted, its response outstanding for one more edge and then presented (R102, R109). -/
theorem test_ports_latency :
    (idlePort.edge lat (presenting (0xc0#264 <<< 256))).rspWord = none ∧
    ((idlePort.edge lat (presenting (0xc0#264 <<< 256))).edge lat ready).rspWord
      = some 0x100000000000000000000000000000010#131 := by decide

theorem witness_ResetEdgeAtThePorts :
    ({ rstN := false, cmd := none, rspReady := false } : PortIn).rstN = false ∧ ready.rstN = true := by decide
theorem witness_ResponseHeldUntilTaken :
    ({ idlePort with phase := .inFlight ⟨.ok, true, 5⟩ 0 } : PortState).presented = some ⟨.ok, true, 5⟩ ∧
    ready.rstN = true ∧ ready.rspReady = true ∧ (presenting 0).rstN = true ∧ (presenting 0).rspReady = false := by decide
theorem witness_OneCommandInFlight :
    idlePort.accepts (presenting 0) = some 0 ∧
    outstanding { idlePort with phase := .inFlight ⟨.ok, false, 0⟩ 3 } = [⟨.ok, false, 0⟩] ∧ ready.rstN = true := by decide
/-- Both clauses: no further edge is too early for a latency of 2, one further edge is exactly it. -/
theorem witness_LatencyIsExact :
    lat.Positive ∧ idlePort.accepts (presenting 0) = some 0 ∧ (∀ j ∈ [ready], j.rstN = true) ∧
    ∃ t, exec (decode 0) idlePort.core = .next t ∧
      ([] : List PortIn).length + 1 < latencyOf lat (decode 0) t.newest.status ∧
      [ready].length + 1 = latencyOf lat (decode 0) t.newest.status :=
  ⟨by decide, by decide, by decide, _, rfl, by decide⟩
/-- One response taken, the second in flight. -/
def secondInFlight : PortState :=
  { core := { keyed 2 7 9 with responses := [⟨.ok, false, 0⟩, ⟨.ok, true, 5⟩] },
    phase := .inFlight ⟨.ok, true, 5⟩ 1,
    taken := [⟨.ok, false, 0⟩] }

theorem witness_PortsKeepResponseOrder : PortsInOrder secondInFlight := by decide
theorem witness_PortsRefineTransactions : idlePort.core.inputs = [] := by decide
/-- Two keys, a `BLOCK` of one byte each, with different bytes. -/
theorem witness_TimingIgnoresSecrets :
    idlePort.core.kv = ({ idlePort with core := keyed 4 1 0 } : PortState).core.kv ∧
    timingOf idlePort.phase = timingOf ({ idlePort with core := keyed 4 1 0 } : PortState).phase ∧
    ∀ ij ∈ [(presenting (0x81#264 <<< 256), presenting (0x81#264 <<< 256 ||| 0x41))],
      ij.1.rstN = ij.2.rstN ∧ ij.1.rspReady = ij.2.rspReady ∧ ij.1.cmd.map header = ij.2.cmd.map header := by decide

end Sys2Proof.Tests
end

section
/-! SUPPORT. What `exec` can do, said once for all four commands (R64, R67, R68, R71, R84, R90): a command is refused or
has its effect. -/

namespace Sys2Proof.Machine

open Sys2Proof.Safety

/-- What a command does when its checks pass: its register writes and its OK answer (R64, R67, R68, R71). -/
def okEffect : Instr → State → State
  | .start _ _, s => (s.setAcc 0).respondOk
  | .key _ data, s => (s.loadKey (clamp (keyLow data)) (keyHigh data)).respondOk
  | .block len data, s => (s.setAcc (foldedAcc len data s)).respondOk
  | .final _ _, s => (s.setAcc 0).respond .ok true (finalTag s)

@[simp] theorem okEffect_kv (i : Instr) (s : State) : (okEffect i s).kv = (isKey i || s.kv) := by
  cases i <;> rfl

/-- The length check of `START` is the legality of its word (R44). -/
theorem startLenLegal_eq_wellFormed (len : LenField) (data : Payload) :
    startLenLegal len = WellFormed (.start len data) := by
  rw [Bool.eq_iff_iff, startLenLegal_iff]
  simp [WellFormed]

/-- The length check of `BLOCK` is the legality of its word (R44). -/
theorem blockLenLegal_eq_wellFormed (len : LenField) (data : Payload) :
    blockLenLegal len = WellFormed (.block len data) := by
  rw [Bool.eq_iff_iff, blockLenLegal_iff]
  simp [WellFormed]

/-- The length check of `FINAL` is the legality of its word (R44). -/
theorem finalLenLegal_eq_wellFormed (len : LenField) (data : Payload) :
    finalLenLegal len = WellFormed (.final len data) := by
  rw [Bool.eq_iff_iff, finalLenLegal_iff]
  simp [WellFormed]

theorem wellFormed_key_iff (len : LenField) (data : Payload) :
    WellFormed (.key len data) = true ↔ len = 32 := by
  simp [WellFormed, ← BitVec.toNat_inj]

theorem isKey_iff {i : Instr} : isKey i = true ↔ ∃ len data, i = .key len data := by
  cases i <;> simp [isKey]

/-- `START`, `BLOCK` and `FINAL` share the checks of R90 and differ only in what follows them. -/
theorem exec_eq_checked {i : Instr} (s : State) (hi : isKey i = false) :
    exec i s = s.checked (WellFormed i) (okEffect i) := by
  cases i with
  | start len data => rw [← startLenLegal_eq_wellFormed]; rfl
  | key len data => cases hi
  | block len data => rw [← blockLenLegal_eq_wellFormed]; rfl
  | final len data => rw [← finalLenLegal_eq_wellFormed]; rfl

/-- All that a command can do: each of the three refusals with its cause (R86 to R90), or the command's effect. -/
theorem exec_cases (i : Instr) (s : State) :
    (isKey i = true ∧ WellFormed i = false ∧ exec i s = .next (s.wipe.respond .invalidKeyLength false 0)) ∨
    (isKey i = false ∧ WellFormed i = false ∧ exec i s = .next (s.respond .badLength false 0)) ∨
    (isKey i = false ∧ WellFormed i = true ∧ s.kv = false ∧ exec i s = .next (s.respond .noKey false 0)) ∨
    ((isKey i = true ∨ s.kv = true) ∧ WellFormed i = true ∧ exec i s = .next (okEffect i s)) := by
  cases hi : isKey i with
  | true =>
    obtain ⟨len, data, rfl⟩ := isKey_iff.1 hi
    obtain ⟨hl, he⟩ | ⟨hl, he⟩ := execKey_cases len data s
    · exact .inl ⟨rfl, by simpa [WellFormed] using hl, he⟩
    · exact .inr (.inr (.inr ⟨.inl rfl, by simpa [WellFormed] using hl, he⟩))
  | false =>
    rw [exec_eq_checked s hi]
    obtain ⟨hw, he⟩ | ⟨hw, hk, he⟩ | ⟨hw, hk, he⟩ := s.checked_cases (WellFormed i) (okEffect i)
    · exact .inr (.inl ⟨rfl, hw, he⟩)
    · exact .inr (.inr (.inl ⟨rfl, hw, hk, he⟩))
    · exact .inr (.inr (.inr ⟨.inr hk, hw, he⟩))

/-- A reset act gives the reset state, with or without a command in flight (R98, R99). -/
theorem step_of_reset {s : State} {rest : List HostAct}
    (h : s.inputs = .reset :: rest ∨ ∃ w, s.inputs = .resetDuring w :: rest) :
    step s = .next { State.reset with inputs := rest } := by
  obtain h | ⟨w, h⟩ := h <;> simp [step, h, State.applyReset]

end Sys2Proof.Machine
end

section
/-! PROOFS. Family 10_state.md: the reset values (R23), and what sets and clears `KV` (R16). -/

namespace Sys2Proof.Machine

open Sys2Proof.Safety

/-- Settles O11: the registers of `State.reset` are written as zero. -/
theorem resetValues : Obligations.ResetValues := ⟨rfl, rfl, rfl, rfl⟩

/-- A `KEY` leaves in `KV` whether its length was legal, and every other command leaves `KV` as it was (R16). -/
theorem exec_kv {i : Instr} {s t : State} (h : exec i s = .next t) :
    t.kv = if isKey i then WellFormed i else s.kv := by
  obtain ⟨hi, hw, he⟩ | ⟨hi, -, he⟩ | ⟨hi, -, -, he⟩ | ⟨hi, hw, he⟩ := exec_cases i s
  · cases he.symm.trans h
    simp [hi, hw]
  · cases he.symm.trans h
    simp [hi]
  · cases he.symm.trans h
    simp [hi]
  · cases he.symm.trans h
    obtain hi | hk := hi
    · simp [hi, hw]
    · cases hi : isKey i <;> simp [hi, hw, hk]

/-- A command that changes `KV` is a `KEY`, and `KV` afterwards is whether its length was 32 (R16). -/
theorem exec_changes_kv {i : Instr} {s t : State} (h : exec i s = .next t) (hne : s.kv ≠ t.kv) :
    ∃ len data, i = .key len data ∧ (t.kv = true ↔ len = 32) := by
  have ht := exec_kv h
  cases hi : isKey i with
  | false => exact absurd (by simp [ht, hi]) hne
  | true =>
    obtain ⟨len, data, rfl⟩ := isKey_iff.1 hi
    exact ⟨len, data, rfl, by rw [ht, if_pos hi, wellFormed_key_iff]⟩

/-- A step that changes `KV` runs a `KEY` or is a reset (R16). -/
theorem step_changes_kv {s t : State} (h : step s = .next t) (hne : s.kv ≠ t.kv) :
    (∃ w rest len data, s.inputs = .command w :: rest ∧ decode w = .key len data ∧
      (t.kv = true ↔ len = 32)) ∨
    (∃ rest, (s.inputs = .reset :: rest ∨ ∃ w, s.inputs = .resetDuring w :: rest) ∧ t.kv = false) := by
  obtain ⟨-, rfl⟩ | ⟨w, rest, hin, he⟩ | ⟨rest, hin, rfl⟩ := step_cases h
  · exact absurd rfl hne
  · obtain ⟨len, data, hd, hkv⟩ := exec_changes_kv he hne
    exact .inl ⟨w, rest, len, data, hin, hd, hkv⟩
  · exact .inr ⟨rest, hin, rfl⟩

theorem step_sets_kv {s t : State} (h : step s = .next t) (hs : s.kv = false) (ht : t.kv = true) :
    ∃ w rest data, s.inputs = .command w :: rest ∧ decode w = .key 32 data := by
  obtain ⟨w, rest, len, data, hin, hd, hkv⟩ | ⟨-, -, hf⟩ := step_changes_kv h (by simp [hs, ht])
  · exact ⟨w, rest, data, hin, hkv.1 ht ▸ hd⟩
  · simp [ht] at hf

theorem step_clears_kv {s t : State} (h : step s = .next t) (hs : s.kv = true) (ht : t.kv = false) :
    (∃ w rest len data, s.inputs = .command w :: rest ∧ decode w = .key len data ∧ len ≠ 32) ∨
    (∃ rest, s.inputs = .reset :: rest) ∨ (∃ w rest, s.inputs = .resetDuring w :: rest) := by
  obtain ⟨w, rest, len, data, hin, hd, hkv⟩ | ⟨rest, hin | ⟨w, hin⟩, -⟩ :=
    step_changes_kv h (by simp [hs, ht])
  · exact .inl ⟨w, rest, len, data, hin, hd, fun hl => by simp [hkv.2 hl] at ht⟩
  · exact .inr (.inl ⟨rest, hin⟩)
  · exact .inr (.inr ⟨w, rest, hin⟩)

theorem exec_key_kv (len : LenField) (data : Payload) (s : State) :
    ∃ t, exec (.key len data) s = .next t ∧ (t.kv = true ↔ len = 32) := by
  obtain ⟨hl, he⟩ | ⟨hl, he⟩ := execKey_cases len data s
  · exact ⟨_, he, by simpa [← BitVec.toNat_inj] using hl⟩
  · exact ⟨_, he, by simpa [← BitVec.toNat_inj] using hl⟩

/-- Without a key, `START`, `BLOCK` and `FINAL` are refused, the length being checked first (R89, R90). -/
theorem exec_refused_of_no_key {i : Instr} {s : State} (hi : isKey i = false) (hs : s.kv = false) :
    exec i s = .next (s.respond (if WellFormed i then .noKey else .badLength) false 0) := by
  obtain ⟨hk, -, -⟩ | ⟨-, hw, he⟩ | ⟨-, hw, -, he⟩ | ⟨hk | hk, -, -⟩ := exec_cases i s
  · simp [hi] at hk
  · simp [he, hw]
  · simp [he, hw]
  · simp [hi] at hk
  · simp [hs] at hk

/-- Settles O22, from what a step that changes `KV` must be, and from what `KEY` and the refused commands do. -/
theorem onlyKeyAndResetChangeKeyValid : Obligations.OnlyKeyAndResetChangeKeyValid := by
  refine ⟨fun s t h => ⟨step_sets_kv h, step_clears_kv h, ?_⟩, fun data s => ?_, fun len data s hl => ?_,
    fun i s hi hs => ⟨_, _, exec_refused_of_no_key hi hs, rfl, rfl⟩⟩
  · rintro ⟨rest, hin⟩
    cases (step_of_reset hin).symm.trans h
    rfl
  · obtain ⟨t, he, hkv⟩ := exec_key_kv 32 data s
    exact ⟨t, he, hkv.2 rfl⟩
  · obtain ⟨t, he, hkv⟩ := exec_key_kv len data s
    exact ⟨t, he, Bool.eq_false_iff.2 (mt hkv.1 hl)⟩

end Sys2Proof.Machine
end

section
/-! PROOFS. Family 30_encoding.md: where the fields of the command word (R38) and of the response word (R46) lie. -/

namespace Sys2Proof

open Machine

/-- The model's fields are bit extractions; R113 defines a slice on the word's number. The two agree. -/
theorem toNat_extractLsb'_eq_slice {n : Nat} (w : BitVec n) (lo len : Nat) :
    (w.extractLsb' lo (len + 1)).toNat = slice w.toNat (lo + len) lo := by
  rw [BitVec.extractLsb'_toNat, Nat.shiftRight_eq_div_pow, slice, Nat.add_sub_cancel_left]

theorem opField_toNat (w : CmdWord) : (opField w).toNat = slice w.toNat 263 262 :=
  toNat_extractLsb'_eq_slice w 262 1

theorem lenField_toNat (w : CmdWord) : (lenField w).toNat = slice w.toNat 261 256 :=
  toNat_extractLsb'_eq_slice w 256 5

theorem dataField_toNat (w : CmdWord) : (dataField w).toNat = slice w.toNat 255 0 :=
  toNat_extractLsb'_eq_slice w 0 255

theorem header_toNat (w : CmdWord) : (header w).toNat = slice w.toNat 263 256 :=
  toNat_extractLsb'_eq_slice w 256 7

/-- The header is the opcode above the length (R38). -/
theorem header_eq_opField_append_lenField (w : CmdWord) : header w = opField w ++ lenField w :=
  (BitVec.extractLsb'_append_extractLsb'_eq_extractLsb' (start₂ := 262) (start₁ := 256) (len₁ := 6) (len₂ := 2)
    rfl).symm

/-- The dispatch of R40, by the opcode map of R41: the command that carries the word's own opcode, with the word's
length and payload. -/
theorem decode_cases (w : CmdWord) :
    ((opField w).toNat = 0 ∧ decode w = .start (lenField w) (dataField w)) ∨
    ((opField w).toNat = 1 ∧ decode w = .key (lenField w) (dataField w)) ∨
    ((opField w).toNat = 2 ∧ decode w = .block (lenField w) (dataField w)) ∨
    ((opField w).toNat = 3 ∧ decode w = .final (lenField w) (dataField w)) := by
  rw [← opOf_decode, ← len_decode, ← data_decode]
  cases decode w with
  | start len data => exact .inl ⟨rfl, rfl⟩
  | key len data => exact .inr (.inl ⟨rfl, rfl⟩)
  | block len data => exact .inr (.inr (.inl ⟨rfl, rfl⟩))
  | final len data => exact .inr (.inr (.inr ⟨rfl, rfl⟩))

/-- Settles O4: the slices are the word's fields, so the dispatch is the one of `decode_cases`. -/
theorem decodeSelectsByOpcode : Obligations.DecodeSelectsByOpcode := by
  intro w
  simp only [← opField_toNat, ← lenField_toNat, ← dataField_toNat, BitVec.ofNat_toNat, BitVec.setWidth_eq]
  exact ⟨decode_cases w, header_toNat w, header_eq_opField_append_lenField w⟩

namespace Machine

theorem responseWord_status (rsp : Response) :
    slice (responseWord rsp).toNat 130 129 = (statusCode rsp.status).toNat := by
  have hs := (statusCode rsp.status).isLt
  have hv := rsp.tagValid.toNat_lt
  have ht := rsp.tag.isLt
  rw [slice, responseWord_toNat]
  omega

theorem responseWord_tagValid (rsp : Response) :
    slice (responseWord rsp).toNat 128 128 = rsp.tagValid.toNat := by
  have hv := rsp.tagValid.toNat_lt
  have ht := rsp.tag.isLt
  rw [slice, responseWord_toNat]
  omega

theorem responseWord_tag (rsp : Response) : slice (responseWord rsp).toNat 127 0 = rsp.tag.toNat := by
  have ht := rsp.tag.isLt
  rw [slice, responseWord_toNat]
  omega

/-- Settles O7: the fields are read off the number the response word is, and the codes are those R47 lists. -/
theorem responseWordFields : Obligations.ResponseWordFields :=
  ⟨fun rsp => ⟨responseWord_status rsp, responseWord_tagValid rsp, responseWord_tag rsp⟩, rfl, rfl, rfl, rfl⟩

end Machine

end Sys2Proof
end

section
/-! SUPPORT. The bytes of a number: `bytesOfNat` and `leInt` undo each other, and the two byte strings the units take off
a number, the lanes of a payload (R51) and the bytes of a tag (R54), are `bytesOfNat` of it. -/

namespace Sys2Proof.Machine

theorem bytesOfNat_eq_map_range (n v : Nat) :
    bytesOfNat n v = (List.range n).map fun i => BitVec.ofNat 8 (v / 256 ^ i) := by
  induction n generalizing v with
  | zero => rfl
  | succ n ih =>
    simp [bytesOfNat, ih, List.range_succ_eq_map, Function.comp_def, Nat.pow_succ', Nat.div_div_eq_div_mul]

theorem leInt_bytesOfNat (n v : Nat) : leInt (bytesOfNat n v) = v % 256 ^ n := by
  induction n generalizing v with
  | zero => simp [bytesOfNat, leInt_nil, Nat.mod_one]
  | succ n ih => simp [bytesOfNat, leInt_cons, ih, Nat.pow_succ', Nat.mod_mul]

theorem bytesOfNat_leInt (b : List Byte) : bytesOfNat b.length (leInt b) = b := by
  induction b with
  | nil => rfl
  | cons x xs ih =>
    have hx := x.isLt
    have hdiv : (x.toNat + 256 * leInt xs) / 256 = leInt xs := by omega
    have hmod : BitVec.ofNat 8 (x.toNat + 256 * leInt xs) = x := by
      apply BitVec.eq_of_toNat_eq
      rw [BitVec.toNat_ofNat]
      omega
    rw [leInt_cons, List.length_cons, bytesOfNat, hdiv, hmod, ih]

theorem leInt_append (a b : List Byte) : leInt (a ++ b) = leInt a + 256 ^ a.length * leInt b := by
  induction a with
  | nil => simp [leInt_nil]
  | cons x xs ih =>
    rw [List.cons_append, leInt_cons, leInt_cons, ih, List.length_cons, Nat.pow_succ']
    ring

theorem leBytes16_eq_bytesOfNat (v : Nat) : leBytes16 v = bytesOfNat 16 v := (bytesOfNat_eq_map_range 16 v).symm

theorem two_pow_eight_mul (n : Nat) : 2 ^ (8 * n) = 256 ^ n := Nat.pow_mul 2 8 n

theorem lane_eq_ofNat (data : Payload) (i : Nat) : lane data i = BitVec.ofNat 8 (data.toNat / 256 ^ i) := by
  rw [lane, BitVec.extractLsb', Nat.shiftRight_eq_div_pow, two_pow_eight_mul]

theorem lanes_eq_bytesOfNat (data : Payload) (n : Nat) : lanes data n = bytesOfNat n data.toNat := by
  simp [lanes, bytesOfNat_eq_map_range, lane_eq_ofNat]

end Sys2Proof.Machine
end

section
/-! PROOFS. Family 40_datapath_units.md: the byte packer (R50 to R55), the clamp (R56 to R58) and the final adder (R63). -/

namespace Sys2Proof.Machine

/-! ### The byte packer -/

/-- The halves of a key are the low and the high 128 bits of its number (R55). -/
theorem leInt_eq_halves {key : List Byte} (h : key.length = 32) :
    leInt key = leInt (key.take 16) + 2 ^ 128 * leInt ((key.drop 16).take 16) := by
  have hhigh : (key.drop 16).take 16 = key.drop 16 := List.take_of_length_le (by simp [h])
  have hlow : (key.take 16).length = 16 := by simp [h]
  have happ := leInt_append (key.take 16) (key.drop 16)
  rwa [List.take_append_drop, hlow, ← hhigh] at happ

/-- Settles O34: the packer takes the bytes of a number, which `leInt` puts together again. -/
theorem packerRoundTrip : Obligations.PackerRoundTrip := by
  refine ⟨fun b hb => ?_, fun v hv => ?_, leInt_append, fun key => leInt_eq_halves⟩
  · rw [leBytes16_eq_bytesOfNat, ← hb, bytesOfNat_leInt]
  · rw [leBytes16_eq_bytesOfNat, leInt_bytesOfNat]
    exact Nat.mod_eq_of_lt hv

/-! ### Chunks and their sentinel -/

/-- A chunk's value is the little-endian value of its lanes (R51, R52). -/
theorem leInt_lanes (data : Payload) (n : Nat) : leInt (lanes data n) = chunkInt data n := by
  rw [lanes_eq_bytesOfNat, leInt_bytesOfNat, chunkInt, two_pow_eight_mul]

/-- The sentinel is a bit above the chunk's, so adding it carries nowhere (R53). -/
theorem blockValue_eq_or (data : Payload) (n : Nat) : blockValue data n = chunkInt data n ||| 1 <<< (8 * n) := by
  rw [blockValue, Nat.add_comm, Nat.lor_comm, ← Nat.shiftLeft_add_eq_or_of_lt (chunkInt_lt data n), Nat.one_shiftLeft]

/-- The sentinel is a byte `0x01` after the chunk (R53). -/
theorem blockValue_eq_leInt (data : Payload) (n : Nat) : blockValue data n = leInt (lanes data n ++ [1#8]) := by
  simp [leInt_append, leInt_lanes, lanes_length, leInt_cons, leInt_nil, blockValue, two_pow_eight_mul]

theorem blockValue_lt (data : Payload) (n : Nat) : blockValue data n < 2 ^ (8 * n + 1) := by
  have := chunkInt_lt data n
  rw [blockValue, Nat.pow_succ]
  omega

/-- Settles O35: the chunk's value is that of its lanes, and leaves the sentinel's bit free. -/
theorem blockValueSetsSentinel : Obligations.BlockValueSetsSentinel := fun data n _ _ =>
  ⟨rfl, Nat.le_sub_one_of_lt (chunkInt_lt data n), (leInt_lanes data n).symm, rfl, blockValue_eq_or data n,
    blockValue_eq_leInt data n, Nat.le_add_left _ _, Nat.le_sub_one_of_lt (blockValue_lt data n)⟩

/-! ### The clamp -/

/-- The bits of the mask: the cleared ones are those R57 lists. -/
theorem clampMask_getLsbD : ∀ i < 128, Config.clampMask.getLsbD i
    = !(decide ((28 ≤ i ∧ i ≤ 33) ∨ (60 ≤ i ∧ i ≤ 65) ∨ (92 ≤ i ∧ i ≤ 97) ∨ 124 ≤ i)) := by
  decide

/-- The bytes of the mask (R57). -/
theorem clampMask_byte : ∀ i < 16, Config.clampMask.extractLsb' (8 * i) 8
    = if i % 4 = 3 then 0x0f#8 else if i % 4 = 0 ∧ i ≠ 0 then 0xfc#8 else 0xff#8 := by
  decide

/-- The 32-bit words of the mask (R57). -/
theorem clampMask_word : ∀ k < 4, Config.clampMask.extractLsb' (32 * k) 32
    = if k = 0 then 0x0fffffff#32 else 0x0ffffffc#32 := by
  decide

/-- The mask passes 106 of the 128 bits (R57). -/
theorem clampMask_countP : (List.range 128).countP Config.clampMask.getLsbD = 106 := by
  have hhalves : List.range 128 = List.range 64 ++ (List.range 64).map (64 + ·) :=
    List.range_add (n := 64) (m := 64)
  rw [hhalves, List.countP_append, List.countP_map]
  decide

theorem clamp_extractLsb' (x : Half) (lo len : Nat) :
    (clamp x).extractLsb' lo len = x.extractLsb' lo len &&& Config.clampMask.extractLsb' lo len :=
  BitVec.extractLsb'_and

/-- R58: a half that is already clamped is left as it is. -/
theorem clamp_clamp (x : Half) : clamp (clamp x) = clamp x := by
  rw [clamp, clamp, BitVec.and_assoc, BitVec.and_self]

/-- Settles O33: a bit, byte or word of the clamp is that of the operand ANDed with that of the mask. -/
theorem clampByBitAndByte : Obligations.ClampByBitAndByte := by
  refine fun x => ⟨clampMask_countP, fun i hi => ?_, fun i hi => ?_, fun k hk => ?_, clamp_clamp x⟩
  · rw [clamp, BitVec.getLsbD_and, clampMask_getLsbD i hi]
  · rw [clamp_extractLsb', clampMask_byte i hi]
  · rw [clamp_extractLsb', clampMask_word k hk]

/-! ### The final adder -/

/-- A slice that starts at bit 0 is a remainder (R113). -/
theorem slice_zero (v hi : Nat) : slice v hi 0 = v % 2 ^ (hi + 1) := by
  rw [slice, Nat.pow_zero, Nat.div_one, Nat.sub_zero]

theorem finalAdd_eq_slice (acc s : Nat) : finalAdd acc s = slice (acc + s) 127 0 := (slice_zero _ 127).symm

/-- Bits 129 and 128 of the accumulator do not enter (R63). -/
theorem finalAdd_slice (acc s : Nat) : finalAdd (slice acc 127 0) s = finalAdd acc s := by
  rw [slice_zero]
  exact Nat.mod_add_mod acc (2 ^ 128) s

/-- `P` is 5 less than a multiple of `2^128`, so a congruent accumulator gives a tag 5 less (R63). -/
theorem finalAdd_add_prime (acc s : Nat) : (finalAdd (acc + Config.prime) s + 5) % 2 ^ 128 = finalAdd acc s := by
  have hsum : acc + Config.prime + s + 5 = acc + s + 2 ^ 128 * 4 := by
    rw [prime_value]
    omega
  calc (finalAdd (acc + Config.prime) s + 5) % 2 ^ 128
    _ = (acc + Config.prime + s + 5) % 2 ^ 128 := Nat.mod_add_mod _ _ 5
    _ = (acc + s + 2 ^ 128 * 4) % 2 ^ 128 := by rw [hsum]
    _ = finalAdd acc s := Nat.add_mul_mod_self_left _ _ 4

/-- Settles O36: `2^128` is the only modulus of the sum, and `P = 4 * 2^128 - 5`. -/
theorem finalAddIsLowBits : Obligations.FinalAddIsLowBits := by
  refine fun acc s => ⟨rfl, finalAdd_eq_slice acc s, (finalAdd_slice acc s).symm, finalAdd_add_prime acc s,
    fun hacc hs => ?_⟩
  rw [prime_value] at hacc
  omega

end Sys2Proof.Machine
end

section
/-! PROOFS. Family 41_key_setup.md: what `KEY` leaves in the state (R64). -/

namespace Sys2Proof.Machine

/-- Dropping bytes off the low end of a number divides it. -/
theorem drop_bytesOfNat (m n v : Nat) : (bytesOfNat (m + n) v).drop m = bytesOfNat n (v / 256 ^ m) := by
  induction m generalizing v with
  | zero => simp
  | succ m ih => rw [Nat.succ_add, bytesOfNat, List.drop_succ_cons, ih, Nat.div_div_eq_div_mul, ← Nat.pow_succ']

/-- The first key half is the little-endian value of lanes 0 to 15 (R43). -/
theorem keyLow_toNat (data : Payload) : (keyLow data).toNat = leInt (lanes data 16) := by
  rw [leInt_lanes, chunkInt, keyLow, BitVec.extractLsb'_toNat, Nat.shiftRight_zero]

/-- The second key half is the little-endian value of lanes 16 to 31 (R43). -/
theorem keyHigh_toNat (data : Payload) : (keyHigh data).toNat = leInt ((lanes data 32).drop 16) := by
  rw [lanes_eq_bytesOfNat, drop_bytesOfNat 16 16, leInt_bytesOfNat, ← two_pow_eight_mul, keyHigh,
    BitVec.extractLsb'_toNat, Nat.shiftRight_eq_div_pow]

theorem clamp_toNat (x : Half) : (clamp x).toNat = x.toNat &&& Config.clampMask.toNat := BitVec.toNat_and ..

/-- Settles O13: `KEY` wipes or loads (`execKey_cases`), and the halves it loads are the values of their lanes. -/
theorem keyLoadsOrWipes : Obligations.KeyLoadsOrWipes := by
  intro len data s
  obtain ⟨hl, he⟩ | ⟨hl, he⟩ := execKey_cases len data s
  · exact ⟨_, he, rfl, rfl, fun h => absurd h hl, fun _ => ⟨rfl, rfl, rfl, rfl⟩⟩
  · refine ⟨_, he, rfl, rfl, fun _ => ⟨rfl, ?_, ?_, rfl⟩, fun h => absurd hl h⟩
    · rw [State.respond_r, State.loadKey_r, clamp_toNat, keyLow_toNat]
    · rw [State.respond_s, State.loadKey_s, keyHigh_toNat]

end Sys2Proof.Machine
end

section
/-! SUPPORT. The three outcomes of a command other than `KEY`, each by the cause that selects it (R88 to R90), and those
causes read off the length field. -/

namespace Sys2Proof.Machine

open Sys2Proof.Safety

theorem exec_of_not_wellFormed {i : Instr} (s : State) (hi : isKey i = false) (hw : WellFormed i = false) :
    exec i s = .next (s.respond .badLength false 0) := by
  rw [exec_eq_checked s hi, hw]
  rfl

theorem exec_of_no_key {i : Instr} {s : State} (hi : isKey i = false) (hw : WellFormed i = true)
    (hs : s.kv = false) : exec i s = .next (s.respond .noKey false 0) := by
  rw [exec_refused_of_no_key hi hs, if_pos hw]

theorem exec_of_key {i : Instr} {s : State} (hi : isKey i = false) (hw : WellFormed i = true)
    (hs : s.kv = true) : exec i s = .next (okEffect i s) := by
  rw [exec_eq_checked s hi]
  obtain ⟨hf, -⟩ | ⟨-, hf, -⟩ | ⟨-, -, he⟩ := s.checked_cases (WellFormed i) (okEffect i)
  · simp [hw] at hf
  · simp [hs] at hf
  · exact he

theorem wellFormed_start_iff (len : LenField) (data : Payload) :
    WellFormed (.start len data) = true ↔ len.toNat = 0 := by
  rw [← startLenLegal_eq_wellFormed, startLenLegal_iff]

theorem wellFormed_block_iff (len : LenField) (data : Payload) :
    WellFormed (.block len data) = true ↔ 1 ≤ len.toNat ∧ len.toNat ≤ 16 := by
  rw [← blockLenLegal_eq_wellFormed, blockLenLegal_iff]

end Sys2Proof.Machine
end

section
/-! PROOFS. Family 42_absorb.md: what `START` (R67) and `BLOCK` (R68) leave in the state. -/

namespace Sys2Proof.Machine

/-- Settles O14: the outcomes of a command other than `KEY`, selected by `len = 0`. -/
theorem startClearsAccumulator : Obligations.StartClearsAccumulator := by
  intro len data s
  have hw := wellFormed_start_iff len data
  refine ⟨fun hl => ?_, fun hl hs => ?_, fun hl hs => ?_⟩
  · exact exec_of_not_wellFormed s rfl (Bool.eq_false_iff.2 (mt hw.1 hl))
  · exact exec_of_no_key rfl (hw.2 hl) hs
  · exact exec_of_key rfl (hw.2 hl) hs

/-- The accumulator after a `BLOCK` holds the exact residue: narrowing it to 130 bits loses nothing (R60, R68). -/
theorem foldedAcc_toNat (len : LenField) (data : Payload) (s : State) :
    (foldedAcc len data s).toNat = s.r.toNat * (s.acc.toNat
      + (leInt (lanes data len.toNat) + 256 ^ len.toNat)) % Config.prime := by
  rw [foldedAcc, mulmod_narrow, mulmod, blockSum, blockValue, leInt_lanes, two_pow_eight_mul, Nat.mul_comm]

/-- Settles O15: the outcomes of a command other than `KEY`, selected by `1 <= len <= 16`; the new accumulator is
`foldedAcc`. -/
theorem blockFoldsChunk : Obligations.BlockFoldsChunk := by
  intro len data s
  have hw := wellFormed_block_iff len data
  refine ⟨fun hl => ?_, fun hlo hhi hs => ?_, fun hlo hhi hs => ⟨foldedAcc len data s, foldedAcc_toNat len data s, ?_⟩⟩
  · have hill : ¬(1 ≤ len.toNat ∧ len.toNat ≤ 16) := by omega
    exact exec_of_not_wellFormed s rfl (Bool.eq_false_iff.2 (mt hw.1 hill))
  · exact exec_of_no_key rfl (hw.2 ⟨hlo, hhi⟩) hs
  · exact exec_of_key rfl (hw.2 ⟨hlo, hhi⟩) hs

end Sys2Proof.Machine
end

section
/-! PROOFS. Family 43_finalize.md: the tag of a `FINAL` and what it leaves in the state (R71). -/

namespace Sys2Proof.Machine

theorem wellFormed_final_iff (len : LenField) (data : Payload) :
    WellFormed (.final len data) = true ↔ len.toNat = 0 := by
  rw [← finalLenLegal_eq_wellFormed, finalLenLegal_iff]

/-- The tag field holds the whole final sum: narrowing it to 128 bits loses nothing (R63, R71). -/
theorem finalTag_toNat (s : State) : (finalTag s).toNat = (s.acc.toNat + s.s.toNat) % Config.tagModulus :=
  finalAdd_narrow s.acc.toNat s.s.toNat

/-- Settles O16: the outcomes of a command other than `KEY`, selected by `len = 0`; the tag is `finalTag`, taken before
`ACC` is cleared. -/
theorem finalReturnsTag : Obligations.FinalReturnsTag := by
  intro len data s
  have hw := wellFormed_final_iff len data
  refine ⟨fun hl => ?_, fun hl hs => ?_,
    fun hl hs => ⟨finalTag s, finalTag_toNat s, congrArg leBytes16 (finalTag_toNat s), ?_⟩⟩
  · exact exec_of_not_wellFormed s rfl (Bool.eq_false_iff.2 (mt hw.1 hl))
  · exact exec_of_no_key rfl (hw.2 hl) hs
  · exact exec_of_key rfl (hw.2 hl) hs

end Sys2Proof.Machine
end

section
/-! SUPPORT. The command port under a list of presented commands: a word decodes to the command it was made from (R38,
R40), so a step over presented commands runs the first of them, and a run over legal commands with a key in the slot is
the fold of their effects. -/

namespace Sys2Proof

theorem opField_encode (i : Instr) : opField (encode i) = opOf i := by
  apply BitVec.eq_of_getLsbD_eq
  intro j hj
  have hdata : ¬ 262 + j < 256 := by omega
  have hlen : ¬ 262 + j < 262 := by omega
  rw [opField, BitVec.getLsbD_extractLsb', decide_eq_true hj, Bool.true_and, encode_getLsbD, if_neg hdata, if_neg hlen,
    Nat.add_sub_cancel_left]

theorem lenField_encode (i : Instr) : lenField (encode i) = i.len := by
  apply BitVec.eq_of_getLsbD_eq
  intro j hj
  have hdata : ¬ 256 + j < 256 := by omega
  have hlen : 256 + j < 262 := by omega
  rw [lenField, BitVec.getLsbD_extractLsb', decide_eq_true hj, Bool.true_and, encode_getLsbD, if_neg hdata, if_pos hlen,
    Nat.add_sub_cancel_left]

theorem dataField_encode (i : Instr) : dataField (encode i) = i.data := by
  apply BitVec.eq_of_getLsbD_eq
  intro j hj
  rw [dataField, BitVec.getLsbD_extractLsb', decide_eq_true hj, Bool.true_and, Nat.zero_add, encode_getLsbD, if_pos hj]

/-- The dispatch of R40 on the three fields `encode` wrote. -/
theorem decode_encode (i : Instr) : decode (encode i) = i := by
  rw [decode, opField_encode, lenField_encode, dataField_encode]
  cases i <;> rfl

namespace Machine

open Sys2Proof.Safety

theorem step_present_cons (s : State) (c : Instr) (cs : List Instr) :
    step (s.present (c :: cs)) = exec c (s.present cs) :=
  congrArg (exec · (s.present cs)) (decode_encode c)

/-- A command reads nothing of what the host does next. -/
theorem okEffect_present (c : Instr) (s : State) (cs : List Instr) :
    okEffect c (s.present cs) = (okEffect c s).present cs := by
  cases c <;> rfl

/-- A legal command has its effect as soon as it is a `KEY` or finds a key (R85). -/
theorem exec_of_wellFormed {c : Instr} {s : State} (hw : WellFormed c = true) (hk : isKey c = true ∨ s.kv = true) :
    exec c s = .next (okEffect c s) := by
  obtain ⟨-, hf, -⟩ | ⟨-, hf, -⟩ | ⟨hi, -, hs, -⟩ | ⟨-, -, he⟩ := exec_cases c s
  · simp [hw] at hf
  · simp [hw] at hf
  · simp [hi, hs] at hk
  · exact he

/-- The effects of commands one after another, each as when its checks pass. -/
def okEffects (cs : List Instr) (s : State) : State := cs.foldl (fun t c => okEffect c t) s

@[simp] theorem okEffects_nil (s : State) : okEffects [] s = s := rfl

@[simp] theorem okEffects_cons (c : Instr) (cs : List Instr) (s : State) :
    okEffects (c :: cs) s = okEffects cs (okEffect c s) := rfl

theorem okEffects_append (cs cs' : List Instr) (s : State) :
    okEffects (cs ++ cs') s = okEffects cs' (okEffects cs s) := List.foldl_append

theorem run_present_cons {c : Instr} {s : State} (hw : WellFormed c = true) (hk : isKey c = true ∨ s.kv = true)
    (n : Nat) (cs : List Instr) : run (n + 1) (s.present (c :: cs)) = run n ((okEffect c s).present cs) := by
  rw [← okEffect_present]
  exact run_of_step ((step_present_cons s c cs).trans (exec_of_wellFormed hw hk))

/-- With a key in the slot, every one of a list of legal commands has its effect, whatever is presented after them. -/
theorem run_present_append {cs : List Instr} {s : State} (hw : ∀ c ∈ cs, WellFormed c = true) (hk : s.kv = true)
    (rest : List Instr) : run cs.length (s.present (cs ++ rest)) = .next ((okEffects cs s).present rest) := by
  induction cs generalizing s with
  | nil => rfl
  | cons c cs ih =>
    obtain ⟨hc, hcs⟩ := List.forall_mem_cons.1 hw
    calc run (cs.length + 1) (s.present (c :: (cs ++ rest)))
      _ = run cs.length ((okEffect c s).present (cs ++ rest)) := run_present_cons hc (.inr hk) _ _
      _ = .next ((okEffects cs (okEffect c s)).present rest) := ih hcs (by simp [hk])

theorem run_present {cs : List Instr} {s : State} (hw : ∀ c ∈ cs, WellFormed c = true) (hk : s.kv = true) :
    run cs.length (s.present cs) = .next (okEffects cs s) := by
  simpa [State.present_nil] using run_present_append hw hk []

end Machine

end Sys2Proof
end

section
/-! PROOFS. Family 44_sequences.md: the partition of a message into chunks (R74). -/

namespace Sys2Proof.Machine

theorem length_chunks (msg : List Byte) : (chunks msg).length = (msg.length + 15) / 16 := by simp [chunks]

/-- Chunk `j` is the 16 bytes from byte `16j` on, or as many as the message has there. -/
theorem getElem?_chunks_eq_some_iff {msg : List Byte} {j : Nat} {c : List Byte} :
    (chunks msg)[j]? = some c ↔ j < (chunks msg).length ∧ (msg.drop (16 * j)).take 16 = c := by
  simp [chunks, List.getElem?_eq_some_iff]

theorem length_of_getElem?_chunks {msg : List Byte} {j : Nat} {c : List Byte} (h : (chunks msg)[j]? = some c) :
    j < (msg.length + 15) / 16 ∧ c.length = min 16 (msg.length - 16 * j) := by
  obtain ⟨hj, rfl⟩ := getElem?_chunks_eq_some_iff.1 h
  rw [length_chunks] at hj
  exact ⟨hj, by rw [List.length_take, List.length_drop]⟩

theorem length_of_mem_chunks {msg c : List Byte} (h : c ∈ chunks msg) : 1 ≤ c.length ∧ c.length ≤ 16 := by
  obtain ⟨j, hj⟩ := List.mem_iff_getElem?.1 h
  have := length_of_getElem?_chunks hj
  omega

theorem length_of_mem_dropLast_chunks {msg c : List Byte} (h : c ∈ (chunks msg).dropLast) : c.length = 16 := by
  obtain ⟨j, hj⟩ := List.mem_iff_getElem?.1 h
  obtain ⟨hlast, hj⟩ := Option.ite_none_right_eq_some.1 (List.getElem?_dropLast.symm.trans hj)
  rw [length_chunks] at hlast
  have := length_of_getElem?_chunks hj
  omega

theorem length_of_getLast?_chunks {msg c : List Byte} (h : (chunks msg).getLast? = some c) :
    c.length = if msg.length % 16 = 0 then 16 else msg.length % 16 := by
  rw [List.getLast?_eq_getElem?, length_chunks] at h
  have := length_of_getElem?_chunks h
  split <;> omega

/-- Consecutive pieces of 16 bytes put together again. -/
theorem flatten_map_range_take_drop (msg : List Byte) (n : Nat) :
    ((List.range n).map fun j => (msg.drop (16 * j)).take 16).flatten = msg.take (16 * n) := by
  induction n with
  | zero => rfl
  | succ n ih => simp [List.range_succ, ih, Nat.mul_succ, List.take_add]

theorem flatten_chunks (msg : List Byte) : (chunks msg).flatten = msg := by
  rw [chunks, flatten_map_range_take_drop]
  exact List.take_of_length_le (by omega)

/-- The slice `msg[16j : min(16(j+1), L)]` of R74 is the chunk as `chunks` cuts it. -/
theorem drop_take_eq_take_drop (msg : List Byte) (j : Nat) :
    (msg.take (min (16 * (j + 1)) msg.length)).drop (16 * j) = (msg.drop (16 * j)).take 16 := by
  rw [List.drop_take, List.take_eq_take_iff, List.length_drop]
  omega

/-- Settles O38: every length is that of the piece at its place, and the pieces are consecutive. -/
theorem chunksPartitionMessage : Obligations.ChunksPartitionMessage := fun msg =>
  ⟨flatten_chunks msg, length_chunks msg, fun _ => length_of_mem_chunks, fun _ => length_of_mem_dropLast_chunks,
    fun _ => length_of_getLast?_chunks,
    fun j _ h => (getElem?_chunks_eq_some_iff.1 h).2.symm.trans (drop_take_eq_take_drop msg j).symm⟩

end Sys2Proof.Machine
end

section
/-! SUPPORT. The assembler's commands (R48): what the block sees of the bytes placed in them, and what the commands of a
`TAG` (R75) leave in the state. -/

namespace Sys2Proof.Machine

open Sys2Proof.Safety

/-! ### The assembler -/

theorem declaredLen_toNat {n : Nat} (h : n ≤ 63) : (declaredLen n).toNat = n := by
  rw [declaredLen, BitVec.toNat_ofNat]
  omega

/-- The lanes a command declares hold the bytes placed there (R43). -/
theorem lanes_packLanes {b : List Byte} (h : b.length ≤ 32) : lanes (packLanes b) b.length = b := by
  have hlt : leInt b < 2 ^ 256 :=
    (leInt_lt b).trans_le ((Nat.pow_le_pow_right (by decide) h).trans_eq (two_pow_eight_mul 32).symm)
  rw [lanes_eq_bytesOfNat, packLanes, BitVec.toNat_ofNat, Nat.mod_eq_of_lt hlt, bytesOfNat_leInt]

theorem take_lanes {m n : Nat} (data : Payload) (h : m ≤ n) : (lanes data n).take m = lanes data m := by
  rw [lanes, ← List.map_take, List.take_range, Nat.min_eq_left h, lanes]

theorem wellFormed_asmBlock {c : List Byte} (h : 1 ≤ c.length ∧ c.length ≤ 16) : WellFormed (asmBlock c) = true := by
  rw [asmBlock, wellFormed_block_iff, declaredLen_toNat (by omega)]
  exact h

theorem wellFormed_asmKey {key : List Byte} (h : key.length = 32) : WellFormed (asmKey key) = true := by
  rw [asmKey, wellFormed_key_iff, h]
  rfl

theorem wellFormed_of_mem_tagCommands {msg : List Byte} {c : Instr} (h : c ∈ tagCommands msg) :
    WellFormed c = true := by
  obtain rfl | ⟨b, hb, rfl⟩ | rfl : c = .start 0 0 ∨ (∃ b ∈ chunks msg, asmBlock b = c) ∨ c = .final 0 0 := by
    simpa [tagCommands] using h
  · rfl
  · exact wellFormed_asmBlock (length_of_mem_chunks hb)
  · rfl

/-! ### The effects of a `TAG` -/

/-- One `BLOCK` of a chunk is one step of the recurrence of R78 (R68). -/
theorem okEffect_asmBlock_acc {c : List Byte} (h : c.length ≤ 16) (s : State) :
    (okEffect (asmBlock c) s).acc.toNat = s.r.toNat * (s.acc.toNat + chunkValue c) % Config.prime := by
  calc (okEffect (asmBlock c) s).acc.toNat
    _ = (foldedAcc (declaredLen c.length) (packLanes c) s).toNat := rfl
    _ = s.r.toNat * (s.acc.toNat + chunkValue c) % Config.prime := by
      rw [foldedAcc_toNat, declaredLen_toNat (by omega), lanes_packLanes (by omega), chunkValue]

/-- The `BLOCK`s of a list of chunks run the recurrence of R78 over their values, and otherwise only answer. -/
theorem okEffects_asmBlock {cs : List (List Byte)} (h : ∀ c ∈ cs, c.length ≤ 16) (s : State) :
    ∃ acc : Residue, acc.toNat = absorb s.r.toNat s.acc.toNat (cs.map chunkValue) ∧
      okEffects (cs.map asmBlock) s =
        { s with acc := acc, responses := s.responses ++ List.replicate cs.length ⟨.ok, false, 0⟩ } := by
  induction cs generalizing s with
  | nil => exact ⟨s.acc, rfl, by simp⟩
  | cons c cs ih =>
    obtain ⟨hc, hcs⟩ := List.forall_mem_cons.1 h
    obtain ⟨acc, hacc, heq⟩ := ih hcs (okEffect (asmBlock c) s)
    refine ⟨acc, ?_, ?_⟩
    · rw [hacc, okEffect_asmBlock_acc hc]
      rfl
    · rw [List.map_cons, okEffects_cons, heq]
      simp [asmBlock, okEffect, State.respondOk, State.respond, State.setAcc, List.replicate_succ]

/-- The tag a `TAG` of a message answers with, by the recurrence and the final sum of R78. -/
def messageTag (msg : List Byte) (s : State) : Half :=
  BitVec.ofNat 128 (finalAdd (absorb s.r.toNat 0 ((chunks msg).map chunkValue)) s.s.toNat)

/-- The state a `TAG` of a message leaves: the key as it was, a cleared accumulator, and the answers (R79). -/
def State.afterTag (s : State) (msg : List Byte) : State :=
  { s with
    acc := 0
    responses := s.responses ++ List.replicate ((chunks msg).length + 1) ⟨.ok, false, 0⟩
      ++ [⟨.ok, true, messageTag msg s⟩] }

@[simp] theorem State.afterTag_kv (s : State) (msg : List Byte) : (s.afterTag msg).kv = s.kv := rfl
@[simp] theorem State.afterTag_r (s : State) (msg : List Byte) : (s.afterTag msg).r = s.r := rfl
@[simp] theorem State.afterTag_s (s : State) (msg : List Byte) : (s.afterTag msg).s = s.s := rfl
@[simp] theorem State.afterTag_acc (s : State) (msg : List Byte) : (s.afterTag msg).acc = 0 := rfl
@[simp] theorem State.afterTag_inputs (s : State) (msg : List Byte) : (s.afterTag msg).inputs = s.inputs := rfl
@[simp] theorem State.afterTag_responses (s : State) (msg : List Byte) :
    (s.afterTag msg).responses = s.responses ++ List.replicate ((chunks msg).length + 1) ⟨.ok, false, 0⟩
      ++ [⟨.ok, true, messageTag msg s⟩] := rfl

/-- `START` clears the old accumulator, the `BLOCK`s run the recurrence from 0, `FINAL` answers with its tag (R75). -/
theorem okEffects_tagCommands (msg : List Byte) (s : State) : okEffects (tagCommands msg) s = s.afterTag msg := by
  obtain ⟨acc, hacc, heq⟩ :=
    okEffects_asmBlock (fun _ hc => (length_of_mem_chunks hc).2) (okEffect (.start 0 0) s) (cs := chunks msg)
  have hacc : acc.toNat = absorb s.r.toNat 0 ((chunks msg).map chunkValue) := hacc
  rw [tagCommands, okEffects_cons, okEffects_append, heq]
  simp [okEffect, State.respondOk, State.respond, State.setAcc, State.afterTag, finalTag, messageTag, hacc,
    List.replicate_succ]

theorem run_tagCommands {s : State} (hk : s.kv = true) (msg : List Byte) :
    run (tagCommands msg).length (s.present (tagCommands msg)) = .next (s.afterTag msg) := by
  rw [run_present (fun _ => wellFormed_of_mem_tagCommands) hk, okEffects_tagCommands]

end Sys2Proof.Machine
end

section
/-! PROOFS. Family 44_sequences.md: `TAG` and `MAC` compute `poly1305` (R79), the empty message (R77), and reuse of a key
(R81). -/

namespace Sys2Proof.Machine

/-! ### The key in the slot -/

/-- The slot holds a key, clamped and split: the states R79 (b) speaks of. -/
structure HoldsKey (key : List Byte) (s : State) : Prop where
  kv : s.kv = true
  r : s.r.toNat = leInt (key.take 16) &&& Config.clampMask.toNat
  s : s.s.toNat = leInt (key.drop 16)

/-- R79 (c): the key is still there after a `TAG`. -/
theorem HoldsKey.afterTag {key : List Byte} {s : State} (h : HoldsKey key s) (msg : List Byte) :
    HoldsKey key (s.afterTag msg) :=
  ⟨h.kv, h.r, h.s⟩

/-- `KEY` puts a 32-byte key into the slot, whatever was there (R64). -/
theorem holdsKey_asmKey {key : List Byte} (h : key.length = 32) (s : State) :
    HoldsKey key (okEffect (asmKey key) s) := by
  have hlanes : lanes (packLanes key) 32 = key := h ▸ lanes_packLanes h.le
  refine ⟨rfl, ?_, ?_⟩
  · calc (clamp (keyLow (packLanes key))).toNat
      _ = leInt (lanes (packLanes key) 16) &&& Config.clampMask.toNat := by rw [clamp_toNat, keyLow_toNat]
      _ = leInt (key.take 16) &&& Config.clampMask.toNat := by rw [← take_lanes _ (by decide : 16 ≤ 32), hlanes]
  · calc (keyHigh (packLanes key)).toNat
      _ = leInt ((lanes (packLanes key) 32).drop 16) := keyHigh_toNat _
      _ = leInt (key.drop 16) := by rw [hlanes]

theorem HoldsKey.tagBytes_messageTag {key : List Byte} {s : State} (h : HoldsKey key s) (msg : List Byte) :
    (⟨.ok, true, messageTag msg s⟩ : Response).tagBytes = poly1305 key msg := by
  rw [Response.tagBytes, messageTag, finalAdd_narrow, h.r, h.s]
  rfl

/-! ### `TAG` and `MAC` -/

theorem run_macCommands {key : List Byte} (h : key.length = 32) (msg : List Byte) (s : State) :
    run (macCommands key msg).length (s.present (macCommands key msg))
      = .next ((okEffect (asmKey key) s).afterTag msg) := by
  calc run ((tagCommands msg).length + 1) (s.present (asmKey key :: tagCommands msg))
    _ = run (tagCommands msg).length ((okEffect (asmKey key) s).present (tagCommands msg)) :=
      run_present_cons (wellFormed_asmKey h) (.inl rfl) _ _
    _ = .next ((okEffect (asmKey key) s).afterTag msg) := run_tagCommands (holdsKey_asmKey h s).kv msg

/-- Settles O39: `TAG` answers with the tag of the recurrence on the registers it finds, and `MAC` is a `TAG` after the
`KEY` that loads them. -/
theorem tagAndMacComputePoly1305 : Obligations.TagAndMacComputePoly1305 := by
  refine fun key msg s hlen => ⟨fun hkv hr hs => ?_, ?_⟩
  · have hold : HoldsKey key s := ⟨hkv, hr, hs⟩
    exact ⟨_, _, run_tagCommands hkv msg, rfl, hold.tagBytes_messageTag msg, hkv, rfl, rfl, rfl, rfl⟩
  · have hold := holdsKey_asmKey hlen s
    refine ⟨_, _, run_macCommands hlen msg s, ?_, hold.tagBytes_messageTag msg, hold.kv, hold.r, hold.s, rfl, rfl⟩
    simp [asmKey, okEffect, State.respondOk, List.replicate_succ]

/-! ### The empty message -/

/-- The recurrence over no chunks leaves 0, and `0 + S` does not overflow the tag. -/
theorem messageTag_nil (s : State) : messageTag [] s = s.s := by
  apply BitVec.eq_of_toNat_eq
  calc (messageTag [] s).toNat
    _ = finalAdd 0 s.s.toNat := finalAdd_narrow _ _
    _ = s.s.toNat := by rw [finalAdd, Nat.zero_add]; exact Nat.mod_eq_of_lt s.s.isLt

/-- Settles O41: `START` clears `ACC` and there is no `BLOCK`, so the tag is `S`, whose bytes are the key's. -/
theorem emptyMessageTagIsSecondHalf : Obligations.EmptyMessageTagIsSecondHalf := by
  intro key s hlen hkv hs
  have hhalf : (key.drop 16).length = 16 := by simp [hlen]
  refine ⟨rfl, okEffect (.start 0 0) s, s.afterTag [], s.s, ?_, rfl, rfl, run_tagCommands hkv [], ?_, ?_⟩
  · exact run_present_cons (c := .start 0 0) rfl (.inr hkv) 0 [.final 0 0]
  · simp [messageTag_nil, chunks]
  · rw [Response.tagBytes, hs]
    exact packerRoundTrip.1 _ hhalf

/-! ### Reuse -/

/-- The tags among a state's responses, in order, as bytes. -/
def State.tags (s : State) : List (List Byte) := (s.responses.filter (·.tagValid)).map Response.tagBytes

theorem HoldsKey.tags_afterTag {key : List Byte} {s : State} (h : HoldsKey key s) (msg : List Byte) :
    (s.afterTag msg).tags = s.tags ++ [poly1305 key msg] := by
  simp [State.tags, h.tagBytes_messageTag]

/-- Each `TAG` adds the tag of its own message and leaves the key for the next. -/
theorem HoldsKey.tags_okEffects_flatMap {key : List Byte} {s : State} (h : HoldsKey key s)
    (msgs : List (List Byte)) :
    (okEffects (msgs.flatMap tagCommands) s).tags = s.tags ++ msgs.map (poly1305 key) := by
  induction msgs generalizing s with
  | nil => simp
  | cons msg msgs ih =>
    rw [List.flatMap_cons, okEffects_append, okEffects_tagCommands, ih (h.afterTag msg), h.tags_afterTag,
      List.append_assoc, List.singleton_append, List.map_cons]

/-- Settles O43: a run over the `TAG`s is the fold of their effects. -/
theorem reuseGivesIndependentTags : Obligations.ReuseGivesIndependentTags := by
  intro key msgs s _ hkv hr hs
  have hold : HoldsKey key s := ⟨hkv, hr, hs⟩
  have hlegal : ∀ c ∈ msgs.flatMap tagCommands, WellFormed c = true := by
    intro c hc
    obtain ⟨msg, -, hc⟩ := List.mem_flatMap.1 hc
    exact wellFormed_of_mem_tagCommands hc
  exact ⟨_, run_present hlegal hkv, hold.tags_okEffects_flatMap msgs⟩

end Sys2Proof.Machine
end

section
/-! SUPPORT. The response of a command read off its outcome: `exec_cases` with the response it appends (R46, R84), and
the causes of the statuses read off the length field (R85, R86). -/

namespace Sys2Proof.Machine

open Sys2Proof.Safety

/-- A command whose checks pass answers OK, and its response has a tag exactly for `FINAL` (R46, R85). -/
theorem okEffect_answers (i : Instr) (s : State) :
    ∃ rsp, (okEffect i s).responses = s.responses ++ [rsp] ∧ rsp.status = .ok ∧ rsp.tagValid = isFinal i := by
  cases i <;> exact ⟨_, rfl, rfl, rfl⟩

/-- All that an answered command can have done, by its status: the cause, the next state and the response (R84). -/
theorem exec_answered {i : Instr} {s t : State} {rsp : Response} (h : exec i s = .next t)
    (hr : t.responses = s.responses ++ [rsp]) :
    (isKey i = true ∧ WellFormed i = false ∧ t = s.wipe.respond .invalidKeyLength false 0 ∧
      rsp = ⟨.invalidKeyLength, false, 0⟩) ∨
    (isKey i = false ∧ WellFormed i = false ∧ t = s.respond .badLength false 0 ∧ rsp = ⟨.badLength, false, 0⟩) ∨
    (isKey i = false ∧ WellFormed i = true ∧ s.kv = false ∧ t = s.respond .noKey false 0 ∧
      rsp = ⟨.noKey, false, 0⟩) ∨
    ((isKey i = true ∨ s.kv = true) ∧ WellFormed i = true ∧ t = okEffect i s ∧
      rsp.status = .ok ∧ rsp.tagValid = isFinal i) := by
  obtain ⟨hi, hw, he⟩ | ⟨hi, hw, he⟩ | ⟨hi, hw, hs, he⟩ | ⟨hk, hw, he⟩ := exec_cases i s
  · cases he.symm.trans h
    exact .inl ⟨hi, hw, rfl, by simpa using hr.symm⟩
  · cases he.symm.trans h
    exact .inr (.inl ⟨hi, hw, rfl, by simpa using hr.symm⟩)
  · cases he.symm.trans h
    exact .inr (.inr (.inl ⟨hi, hw, hs, rfl, by simpa using hr.symm⟩))
  · cases he.symm.trans h
    obtain ⟨rsp', hr', hok, htag⟩ := okEffect_answers i s
    obtain rfl : rsp' = rsp := by simpa using hr'.symm.trans hr
    exact .inr (.inr (.inr ⟨hk, hw, rfl, hok, htag⟩))

/-- Among `KEY`s the illegal words are those whose declared length is not 32 (R44, R86). -/
theorem isKey_and_not_wellFormed_iff (i : Instr) :
    isKey i = true ∧ WellFormed i = false ↔ isKey i = true ∧ i.len.toNat ≠ 32 := by
  cases i <;> simp [isKey, WellFormed, Instr.len]

end Sys2Proof.Machine
end

section
/-! PROOFS. Family 60_exceptions.md: which status a command answers (R84 to R86, R90), and what a status other than OK
does to the state (R87 to R89). -/

namespace Sys2Proof.Machine

open Sys2Proof.Safety

/-- The rows of R84 for all commands at once: first the legality of the word, then the key (R90). -/
theorem answer_eq (kv : Bool) (i : Instr) : answer kv i =
    if WellFormed i then (if isKey i || kv then .ok else .noKey)
    else (if isKey i then .invalidKeyLength else .badLength) := by
  cases i with
  | start len data => simp [answer, isKey, wellFormed_start_iff]
  | key len data => simp [answer, isKey, WellFormed]
  | block len data =>
    have hill : (len.toNat = 0 ∨ 16 < len.toNat) ↔ ¬(1 ≤ len.toNat ∧ len.toNat ≤ 16) := by omega
    simp only [answer, isKey, wellFormed_block_iff, hill, ite_not, Bool.false_or, Bool.false_eq_true, if_false]
  | final len data => simp [answer, isKey, wellFormed_final_iff]

/-- Settles O19: each outcome of a command has the cause that selects its row in `answer_eq`. -/
theorem answerFollowsStatusTable : Obligations.AnswerFollowsStatusTable := by
  intro i s
  obtain ⟨hi, hw, he⟩ | ⟨hi, hw, he⟩ | ⟨hi, hw, hs, he⟩ | ⟨hk, hw, he⟩ := exec_cases i s
  · exact ⟨_, _, he, rfl, by simp [answer_eq, hi, hw]⟩
  · exact ⟨_, _, he, rfl, by simp [answer_eq, hi, hw]⟩
  · exact ⟨_, _, he, rfl, by simp [answer_eq, hi, hw, hs]⟩
  · obtain ⟨rsp, hr, hok, -⟩ := okEffect_answers i s
    exact ⟨_, rsp, he, hr, by simp [answer_eq, hw, hk, hok]⟩

/-- A command answers OK exactly when its word is legal and it is a `KEY` or finds a key (R85). -/
theorem status_ok_iff {i : Instr} {s t : State} {rsp : Response} (h : exec i s = .next t)
    (hr : t.responses = s.responses ++ [rsp]) :
    rsp.status = .ok ↔ WellFormed i = true ∧ (isKey i = true ∨ s.kv = true) := by
  obtain ⟨-, hw, -, rfl⟩ | ⟨-, hw, -, rfl⟩ | ⟨hi, -, hs, -, rfl⟩ | ⟨hk, hw, -, hok, -⟩ := exec_answered h hr
  · simp [hw]
  · simp [hw]
  · simp [hi, hs]
  · simp [hw, hk, hok]

/-- Only a `FINAL` answers with a tag (R46). -/
theorem isFinal_of_tagValid {i : Instr} {s t : State} {rsp : Response} (h : exec i s = .next t)
    (hr : t.responses = s.responses ++ [rsp]) (htag : rsp.tagValid = true) : isFinal i = true := by
  obtain ⟨-, -, -, rfl⟩ | ⟨-, -, -, rfl⟩ | ⟨-, -, -, -, rfl⟩ | ⟨-, -, -, -, hfinal⟩ := exec_answered h hr
  · cases htag
  · cases htag
  · cases htag
  · exact hfinal.symm.trans htag

/-- Settles O20: `status_ok_iff`, with the legality of each command read off its length field. -/
theorem okExactlyWhen : Obligations.OkExactlyWhen := by
  intro i s t rsp h hr
  refine ⟨(status_ok_iff h hr).trans ?_, fun _ => isFinal_of_tagValid h hr⟩
  cases i with
  | start len data => simp [isKey, wellFormed_start_iff]
  | key len data => simp [isKey, WellFormed]
  | block len data => simp [isKey, wellFormed_block_iff, and_assoc]
  | final len data => simp [isKey, wellFormed_final_iff]

/-- Settles O21: of the four outcomes of an answered command only the failed `KEY` answers InvalidKeyLength, and its next
state is the wipe; BadLength and NoKey only append a response. -/
theorem invalidKeyLengthAloneAmongErrorsWipes : Obligations.InvalidKeyLengthAloneAmongErrorsWipes := by
  intro i s t rsp h hr
  rw [← isKey_and_not_wellFormed_iff]
  obtain ⟨hi, hw, rfl, rfl⟩ | ⟨hi, -, rfl, rfl⟩ | ⟨hi, -, -, rfl, rfl⟩ | ⟨-, hw, -, hok, -⟩ := exec_answered h hr
  · exact ⟨by simp [hi, hw], fun _ => ⟨rfl, rfl, rfl, rfl, rfl, rfl⟩, by simp⟩
  · exact ⟨by simp [hi], by simp, fun _ => rfl⟩
  · exact ⟨by simp [hi], by simp, fun _ => rfl⟩
  · simp [hok, hw]

end Sys2Proof.Machine
end

section
/-! SUPPORT. What `exec` answers, for every command at once: one next state, one response with its status and its tag
field (R46, R84, R91), and the registers it leaves (R15); and the changes of a state that a command does not see. -/

namespace Sys2Proof.Machine

open Sys2Proof.Safety

@[simp] theorem okEffect_inputs (i : Instr) (s : State) : (okEffect i s).inputs = s.inputs := by
  cases i <;> rfl

/-- Of the commands only `FINAL` fills the tag field of its answer (R46). -/
theorem okEffect_responses_of_not_final {i : Instr} (hi : isFinal i = false) (s : State) :
    (okEffect i s).responses = s.responses ++ [⟨.ok, false, 0⟩] := by
  cases i with
  | final len data => cases hi
  | start len data => rfl
  | key len data => rfl
  | block len data => rfl

/-- The tag is valid exactly in the OK answer of a `FINAL`, and a response without a tag has a zero tag field (R46). -/
theorem okEffect_tag (i : Instr) (s : State) :
    ∃ rsp, (okEffect i s).responses = s.responses ++ [rsp] ∧
      (rsp.tagValid = true ↔ isFinal i = true ∧ rsp.status = .ok) ∧ (rsp.tagValid = false → rsp.tag = 0) := by
  cases hi : isFinal i with
  | false => exact ⟨_, okEffect_responses_of_not_final hi s, by simp⟩
  | true =>
    obtain ⟨rsp, hr, hok, htag⟩ := okEffect_answers i s
    exact ⟨rsp, hr, by simp [htag, hi, hok]⟩

/-- `START`, `BLOCK` and `FINAL` write none of `KV`, `R` and `S` (R15). -/
theorem okEffect_frame {i : Instr} (hi : isKey i = false) (s : State) :
    (okEffect i s).kv = s.kv ∧ (okEffect i s).r = s.r ∧ (okEffect i s).s = s.s := by
  cases i with
  | key len data => cases hi
  | start len data => exact ⟨rfl, rfl, rfl⟩
  | block len data => exact ⟨rfl, rfl, rfl⟩
  | final len data => exact ⟨rfl, rfl, rfl⟩

/-- A command gives a next state, whatever the state and its fields (R40, R44). -/
theorem exec_total (i : Instr) (s : State) : ∃ t, exec i s = .next t := by
  obtain ⟨-, -, he⟩ | ⟨-, -, he⟩ | ⟨-, -, -, he⟩ | ⟨-, -, he⟩ := exec_cases i s
  · exact ⟨_, he⟩
  · exact ⟨_, he⟩
  · exact ⟨_, he⟩
  · exact ⟨_, he⟩

/-- No command touches what the host does next (R9). -/
theorem exec_inputs {i : Instr} {s t : State} (h : exec i s = .next t) : t.inputs = s.inputs := by
  obtain ⟨-, -, he⟩ | ⟨-, -, he⟩ | ⟨-, -, -, he⟩ | ⟨-, -, he⟩ := exec_cases i s
  · cases he.symm.trans h
    rfl
  · cases he.symm.trans h
    rfl
  · cases he.symm.trans h
    rfl
  · cases he.symm.trans h
    exact okEffect_inputs i s

/-- The one response of a command: its status by the table of R84, its tag field by R46. -/
theorem exec_response {i : Instr} {s t : State} (h : exec i s = .next t) :
    ∃ rsp, t.responses = s.responses ++ [rsp] ∧ rsp.status = answer s.kv i ∧
      (rsp.tagValid = true ↔ isFinal i = true ∧ rsp.status = .ok) ∧ (rsp.tagValid = false → rsp.tag = 0) := by
  obtain ⟨_, rsp, he, hr, hstatus⟩ := answerFollowsStatusTable i s
  cases he.symm.trans h
  refine ⟨rsp, hr, hstatus, ?_⟩
  obtain ⟨-, -, -, rfl⟩ | ⟨-, -, -, rfl⟩ | ⟨-, -, -, -, rfl⟩ | ⟨-, -, rfl, -, -⟩ := exec_answered h hr
  · simp
  · simp
  · simp
  · obtain ⟨rsp', hr', htag⟩ := okEffect_tag i s
    obtain rfl : rsp' = rsp := by simpa using hr'.symm.trans hr
    exact htag

/-- A response that is not to a `FINAL` is its status and nothing else (R46). -/
theorem exec_responses_of_not_final {i : Instr} {s t : State} (h : exec i s = .next t) (hi : isFinal i = false) :
    t.responses = s.responses ++ [⟨answer s.kv i, false, 0⟩] := by
  obtain ⟨⟨status, tagValid, tag⟩, hr, rfl, hvalid, htag⟩ := exec_response h
  obtain rfl : tagValid = false := by simpa [hi] using hvalid
  obtain rfl : tag = 0 := htag rfl
  exact hr

/-- The response given last is the command's own (R91). -/
theorem exec_newest {i : Instr} {s t : State} (h : exec i s = .next t) :
    t.responses = s.responses ++ [t.newest] ∧ t.newest.status = answer s.kv i := by
  obtain ⟨rsp, hr, hstatus, -⟩ := exec_response h
  have hnewest : t.newest = rsp := by simp [State.newest, hr]
  rw [hnewest]
  exact ⟨hr, hstatus⟩

/-- A `KEY` of another length than 32 wipes (R87). -/
theorem exec_of_bad_key {i : Instr} {s : State} (hi : isKey i = true) (hw : WellFormed i = false) :
    exec i s = .next (s.wipe.respond .invalidKeyLength false 0) := by
  obtain ⟨-, -, he⟩ | ⟨hf, -, -⟩ | ⟨hf, -, -, -⟩ | ⟨-, hf, -⟩ := exec_cases i s
  · exact he
  · simp [hi] at hf
  · simp [hi] at hf
  · simp [hw] at hf

/-- A change of the state that keeps `KV`, and with which answering, the wipe of a `KEY` and the command's own effect
commute, commutes with the command. -/
theorem exec_commutes {i : Instr} {s : State} {f : State → State} (hkv : (f s).kv = s.kv)
    (hrespond : ∀ u st, (f u).respond st false 0 = f (u.respond st false 0))
    (hwipe : isKey i = true → (f s).wipe = f s.wipe) (heffect : okEffect i (f s) = f (okEffect i s)) :
    ∃ t, exec i s = .next t ∧ exec i (f s) = .next (f t) := by
  obtain ⟨hi, hw, he⟩ | ⟨hi, hw, he⟩ | ⟨hi, hw, hs, he⟩ | ⟨hk, hw, he⟩ := exec_cases i s
  · refine ⟨_, he, ?_⟩
    rw [exec_of_bad_key hi hw, hwipe hi, hrespond]
  · refine ⟨_, he, ?_⟩
    rw [exec_of_not_wellFormed _ hi hw, hrespond]
  · refine ⟨_, he, ?_⟩
    rw [exec_of_no_key hi hw (hkv.trans hs), hrespond]
  · refine ⟨_, he, ?_⟩
    rw [exec_of_wellFormed hw (hk.imp_right hkv.trans), heffect]

end Sys2Proof.Machine
end

section
/-! PROOFS. Family 30_encoding.md and the opcode table: `decode` and `encode` undo each other (R38, R40, R41), on words,
on the rows of the table and on bytes. -/

namespace Sys2Proof

open Machine

/-- Settles O2: each field is read back where `encode` wrote it. -/
theorem decodeEncodeRoundTrip : Obligations.DecodeEncodeRoundTrip := decode_encode

/-- Settles O3: bit by bit, the field `encode` writes at a position is the field `decode` took there. -/
theorem encodeDecodeRoundTrip : Obligations.EncodeDecodeRoundTrip := by
  intro w
  apply BitVec.eq_of_getLsbD_eq
  intro j hj
  rw [encode_getLsbD, data_decode, len_decode, opOf_decode, dataField, lenField, opField]
  split
  · simp [*]
  split
  · have hsum : 256 + (j - 256) = j := by omega
    have hlt : j - 256 < 6 := by omega
    simp [hsum, hlt]
  · have hsum : 262 + (j - 262) = j := by omega
    have hlt : j - 262 < 2 := by omega
    simp [hsum, hlt]

/-- Settles O1: five closed words, decoded by computation. -/
theorem decodeOfWrittenWords : Obligations.DecodeOfWrittenWords := by
  unfold Obligations.DecodeOfWrittenWords
  decide

/-! ### The opcode table -/

/-- The table's mask keeps the opcode of a word, in its place. -/
theorem and_opMask (w : CmdWord) : w &&& (0xc0#264 <<< 256) = (opField w).setWidth 264 <<< 262 := by
  have hmask : 0xc0#264 <<< 256 = (BitVec.allOnes 2).setWidth 264 <<< 262 := by decide
  apply BitVec.eq_of_getLsbD_eq
  intro j hj
  rw [hmask, opField, BitVec.getLsbD_and, BitVec.getLsbD_shiftLeft, BitVec.getLsbD_setWidth,
    BitVec.getLsbD_allOnes, BitVec.getLsbD_shiftLeft, BitVec.getLsbD_setWidth, BitVec.getLsbD_extractLsb']
  by_cases h : j < 262
  · simp [h]
  · have hsum : 262 + (j - 262) = j := by omega
    have hlt : j - 262 < 2 := by omega
    simp [h, hj, hsum, hlt, Bool.and_comm]

/-- An opcode in its place determines the opcode. -/
theorem setWidth_shiftLeft_inj : ∀ a b : OpField, a.setWidth 264 <<< 262 = b.setWidth 264 <<< 262 ↔ a = b := by decide

/-- A word matches a row of the table exactly when it decodes to a command of the row's opcode. -/
theorem and_opMask_eq_iff (w : CmdWord) (op : OpField) :
    w &&& (0xc0#264 <<< 256) = op.setWidth 264 <<< 262 ↔ opOf (decode w) = op := by
  rw [and_opMask, setWidth_shiftLeft_inj, opOf_decode]

/-- Settles O5: the match values are the four opcodes in their place, one for each command. -/
theorem opcodeTableMatches : Obligations.OpcodeTableMatches := by
  intro w
  refine ⟨(and_opMask_eq_iff w 0).trans ?_, (and_opMask_eq_iff w 1).trans ?_, (and_opMask_eq_iff w 2).trans ?_,
    (and_opMask_eq_iff w 3).trans ?_⟩
  all_goals cases decode w <;> simp [opOf]

/-! ### Bytes -/

theorem length_encodeBytes (i : Instr) : (encodeBytes i).length = 33 := by
  simp [encodeBytes, bytesOfNat_eq_map_range]

/-- The bytes of a command word put together again are its number. -/
theorem leInt_encodeBytes (i : Instr) : leInt (encodeBytes i) = (encode i).toNat := by
  have hlt : (encode i).toNat < 256 ^ 33 := (encode i).isLt
  rw [encodeBytes, leInt_bytesOfNat, Nat.mod_eq_of_lt hlt]

/-- Settles O6: 33 bytes are the command word they were taken from, and the length is checked first. -/
theorem byteDecodeRoundTrip : Obligations.ByteDecodeRoundTrip := by
  refine ⟨fun i => ?_, fun bs hlen => if_neg hlen⟩
  rw [decodeBytes, if_pos (length_encodeBytes i), leInt_encodeBytes, BitVec.ofNat_toNat, BitVec.setWidth_eq,
    decode_encode]

end Sys2Proof
end

section
/-! PROOFS. Family 70_reset_and_hazards.md, the transaction level: one step (R9, R98, R99, R112). -/

namespace Sys2Proof.Machine

/-- Settles O8: the command arm of `step`. -/
theorem stepRunsDecodedCommand : Obligations.StepRunsDecodedCommand := by
  rintro s w rest _ hin rfl
  simp only [step, hin]

/-- Settles O9: the arm of `step` with no act of the host. -/
theorem quiescentWithoutInput : Obligations.QuiescentWithoutInput := by
  intro s hin
  simp only [step, hin]

/-- Settles O10: both reset acts. -/
theorem hostResetReachesResetState : Obligations.HostResetReachesResetState := fun _ _ => step_of_reset

/-- Settles O12: a step takes the oldest act, and every command gives a next state that leaves the others. -/
theorem stepNeverStops : Obligations.StepNeverStops := by
  intro s
  cases hin : s.inputs with
  | nil => exact ⟨s, quiescentWithoutInput s hin, hin⟩
  | cons a rest =>
    cases a with
    | command w =>
      obtain ⟨t, ht⟩ := exec_total (decode w) { s with inputs := rest }
      exact ⟨t, (stepRunsDecodedCommand s w rest _ hin rfl).trans ht, exec_inputs ht⟩
    | reset => exact ⟨_, step_of_reset (.inl hin), rfl⟩
    | resetDuring w => exact ⟨_, step_of_reset (.inr ⟨w, hin⟩), rfl⟩

end Sys2Proof.Machine
end

section
/-! PROOFS. What every command leaves unchanged (R15) and answers (R46), and the invariants that every step keeps (R14,
R46). -/

namespace Sys2Proof.Machine

open Sys2Proof.Safety

/-- Settles O17: the refusals write no register but for the wipe of a `KEY`, and an effect without a `KEY` is OK. -/
theorem frameOfEveryCommand : Obligations.FrameOfEveryCommand := by
  intro i s t h
  obtain ⟨rsp, hr, -⟩ := exec_response h
  refine ⟨exec_inputs h, rsp, hr, ?_⟩
  obtain ⟨hi, -, -, -⟩ | ⟨-, -, rfl, -⟩ | ⟨-, -, -, rfl, -⟩ | ⟨-, -, rfl, hok, -⟩ := exec_answered h hr
  · simp [hi]
  · exact ⟨fun _ => ⟨rfl, rfl, rfl⟩, fun _ _ => rfl⟩
  · exact ⟨fun _ => ⟨rfl, rfl, rfl⟩, fun _ _ => rfl⟩
  · exact ⟨fun hi => okEffect_frame hi s, fun _ hne => absurd hok hne⟩

/-- Settles O18: every command gives a next state, with the one response of `exec_response`. -/
theorem everyCommandAnswersOnce : Obligations.EveryCommandAnswersOnce := by
  intro i s
  obtain ⟨t, h⟩ := exec_total i s
  obtain ⟨rsp, hr, -, htag⟩ := exec_response h
  exact ⟨t, rsp, h, hr, htag⟩

/-! ### The registers -/

/-- A zero accumulator is canonical. -/
theorem accCanonical_of_acc_eq_zero {s : State} (h : s.acc = 0) : AccCanonical s := by
  rw [AccCanonical, h]
  exact prime_pos

/-- An empty slot meets INV1 to INV3, which speak of the registers only. -/
theorem stateInv_of_empty {s : State} (hr : s.r = 0) (hs : s.s = 0) (hacc : s.acc = 0) : StateInv s := by
  refine ⟨accCanonical_of_acc_eq_zero hacc, ?_, fun _ => ⟨hr, hs, hacc⟩⟩
  rw [KeyClamped, hr]
  exact BitVec.zero_and

/-- A command's effect leaves `ACC` cleared or a residue of the multiplier (R60). -/
theorem okEffect_accCanonical (i : Instr) (s : State) : AccCanonical (okEffect i s) := by
  cases i with
  | start len data => exact accCanonical_of_acc_eq_zero rfl
  | key len data => exact accCanonical_of_acc_eq_zero rfl
  | block len data => exact (mulmod_narrow _ _).trans_lt (mulmod_lt _ _)
  | final len data => exact accCanonical_of_acc_eq_zero rfl

/-- `KEY` clamps what it loads, and no other command writes `R` (R14, R64). -/
theorem okEffect_keyClamped {i : Instr} {s : State} (h : KeyClamped s) : KeyClamped (okEffect i s) := by
  cases i with
  | start len data => exact h
  | key len data => exact clamp_masked _
  | block len data => exact h
  | final len data => exact h

theorem exec_keeps_stateInv {i : Instr} {s t : State} (hinv : StateInv s) (h : exec i s = .next t) : StateInv t := by
  obtain ⟨-, -, he⟩ | ⟨-, -, he⟩ | ⟨-, -, -, he⟩ | ⟨hk, -, he⟩ := exec_cases i s
  · cases he.symm.trans h
    exact stateInv_of_empty rfl rfl rfl
  · cases he.symm.trans h
    exact hinv
  · cases he.symm.trans h
    exact hinv
  · cases he.symm.trans h
    have hkv : (okEffect i s).kv = true := by simpa using hk
    exact ⟨okEffect_accCanonical i s, okEffect_keyClamped hinv.2.1, fun hf => nomatch hkv.symm.trans hf⟩

/-- Settles O23: with no act nothing changes, every command keeps the invariants, and a reset leaves an empty slot. -/
theorem stepKeepsInvariants : Obligations.StepKeepsInvariants := by
  intro s t hinv h
  obtain ⟨-, rfl⟩ | ⟨w, rest, -, he⟩ | ⟨rest, -, rfl⟩ := step_cases h
  · exact hinv
  · exact exec_keeps_stateInv (s := { s with inputs := rest }) hinv he
  · exact stateInv_of_empty rfl rfl rfl

/-- Settles O24: the reset state is an empty slot with no response listed. -/
theorem resetMeetsInvariants : Obligations.ResetMeetsInvariants :=
  ⟨stateInv_of_empty rfl rfl rfl, List.forall_mem_nil _⟩

/-! ### The responses -/

theorem exec_keeps_cleanResponses {i : Instr} {s t : State} (hclean : CleanResponses s) (h : exec i s = .next t) :
    CleanResponses t := by
  obtain ⟨rsp, hr, -, hvalid, htag⟩ := exec_response h
  rw [CleanResponses, hr, List.forall_mem_append, List.forall_mem_singleton]
  exact ⟨hclean, fun hv => (hvalid.1 hv).2, htag⟩

/-- Settles O25: a step adds the clean response of a command, none, or forgets them all. -/
theorem stepKeepsResponsesClean : Obligations.StepKeepsResponsesClean := by
  intro s t hclean h
  obtain ⟨-, rfl⟩ | ⟨w, rest, -, he⟩ | ⟨rest, -, rfl⟩ := step_cases h
  · exact hclean
  · exact exec_keeps_cleanResponses (s := { s with inputs := rest }) hclean he
  · exact List.forall_mem_nil _

end Sys2Proof.Machine
end

section
/-! PROOFS. What a command does not read: unused lanes (R43), the past of a `KEY` (R65, R66), and the registers outside
its read column (R15). -/

namespace Sys2Proof.Machine

open Sys2Proof.Safety

/-- A `KEY` of another length does not read its payload (R64). -/
theorem exec_key_ignores_data {len : LenField} (hl : len.toNat ≠ 32) (d d' : Payload) (s : State) :
    exec (.key len d) s = exec (.key len d') s := by
  have hw (data : Payload) : WellFormed (.key len data) = false := by simpa [WellFormed] using hl
  rw [exec_of_bad_key rfl (hw d), exec_of_bad_key rfl (hw d')]

/-- A `BLOCK` reads of its payload the declared lanes only (R43, R52). -/
theorem exec_block_reads_lanes {len : LenField} {d d' : Payload} (h : lanes d len.toNat = lanes d' len.toNat)
    (s : State) : exec (.block len d) s = exec (.block len d') s := by
  have heffect (u : State) : okEffect (.block len d) u = okEffect (.block len d') u := by
    simp only [okEffect, foldedAcc, blockSum, blockValue, ← leInt_lanes, h]
  rw [exec_eq_checked s rfl, exec_eq_checked s rfl, funext heffect]
  rfl

/-- Settles O27: the payload stands in no arm of `START` and `FINAL`, only in the load of a `KEY` and, as its lanes, in
the effect of a `BLOCK`. -/
theorem unusedLanesIgnored : Obligations.UnusedLanesIgnored := fun _ d d' s =>
  ⟨rfl, rfl, fun hl => exec_key_ignores_data hl d d' s, fun h => exec_block_reads_lanes h s⟩

/-- Settles O28: a `KEY` writes all four registers in either outcome, so the two lists are all that stays. -/
theorem keyForgetsThePast : Obligations.KeyForgetsThePast := by
  rintro len data ⟨kv, r, h, acc, inputs, responses⟩ ⟨kv', r', h', acc', _, _⟩ rfl rfl
  rfl

/-- Settles O29: a change of the register the command does not read commutes with the command. -/
theorem blockIgnoresSAndFinalIgnoresR : Obligations.BlockIgnoresSAndFinalIgnoresR := by
  intro len data s x
  constructor
  · exact exec_commutes (s := s) (f := fun u => { u with s := x }) rfl (fun _ _ => rfl) nofun rfl
  · exact exec_commutes (s := s) (f := fun u => { u with r := x }) rfl (fun _ _ => rfl) nofun rfl

end Sys2Proof.Machine
end

section
/-! PROOFS. Runs: what holds after a step holds after any number of them; what runs reveal (R46) and answer (R66, R89,
R95), and the order of the answers (R33). -/

namespace Sys2Proof.Machine

open Sys2Proof.Safety

/-! ### Relations that steps keep -/

/-- A relation between two states that a step of both keeps holds after any two runs of one length. -/
theorem run_keeps_relation {Q : State → State → Prop}
    (hstep : ∀ {s s' t t'}, Q s s' → step s = .next t → step s' = .next t' → Q t t') {n : Nat} {s s' t t' : State}
    (hq : Q s s') (h : run n s = .next t) (h' : run n s' = .next t') : Q t t' := by
  induction n generalizing s s' with
  | zero =>
    cases h
    cases h'
    exact hq
  | succ n ih =>
    obtain ⟨u, hu, -⟩ := stepNeverStops s
    obtain ⟨u', hu', -⟩ := stepNeverStops s'
    rw [run_of_step hu] at h
    rw [run_of_step hu'] at h'
    exact ih (hstep hq hu hu') h h'

/-- A predicate that every step keeps holds after every run. -/
theorem run_keeps {Q : State → Prop} (hstep : ∀ {s t}, Q s → step s = .next t → Q t) {n : Nat} {s t : State}
    (hq : Q s) (h : run n s = .next t) : Q t :=
  run_keeps_relation (Q := fun s _ => Q s) (s' := s) (t' := t) (fun hq hs _ => hstep hq hs) hq h h

/-- What the host does after a step it was going to do before (R9). -/
theorem mem_inputs_of_step {s t : State} (h : step s = .next t) {a : HostAct} (ha : a ∈ t.inputs) : a ∈ s.inputs := by
  obtain ⟨_, hs, hin⟩ := stepNeverStops s
  cases hs.symm.trans h
  exact List.mem_of_mem_drop (hin ▸ ha)

/-! ### While no tag is asked for -/

/-- Two states that differ in `R`, `S` and `ACC` only, and are not asked for a tag. -/
structure AgreeWithoutFinal (s s' : State) : Prop where
  kv : s.kv = s'.kv
  inputs : s.inputs = s'.inputs
  responses : s.responses = s'.responses
  noFinal : ∀ w, HostAct.command w ∈ s.inputs → isFinal (decode w) = false

/-- A command but `FINAL` answers from `KV` and its own fields, and from these sets `KV` (R16, R84). -/
theorem exec_agree {i : Instr} (hi : isFinal i = false) {s s' t t' : State} (hkv : s.kv = s'.kv)
    (hin : s.inputs = s'.inputs) (hrsp : s.responses = s'.responses) (h : exec i s = .next t)
    (h' : exec i s' = .next t') : t.kv = t'.kv ∧ t.inputs = t'.inputs ∧ t.responses = t'.responses := by
  refine ⟨?_, ?_, ?_⟩
  · rw [exec_kv h, exec_kv h', hkv]
  · rw [exec_inputs h, exec_inputs h', hin]
  · rw [exec_responses_of_not_final h hi, exec_responses_of_not_final h' hi, hkv, hrsp]

theorem AgreeWithoutFinal.step {s s' t t' : State} (hq : AgreeWithoutFinal s s') (h : step s = .next t)
    (h' : step s' = .next t') : AgreeWithoutFinal t t' := by
  obtain ⟨hkv, hin, hrsp, hfinal⟩ := hq
  have hagree : t.kv = t'.kv ∧ t.inputs = t'.inputs ∧ t.responses = t'.responses := by
    obtain ⟨hnil, rfl⟩ | ⟨w, rest, hcons, he⟩ | ⟨rest, hcons, rfl⟩ := step_cases h
    · cases (quiescentWithoutInput s' (hin ▸ hnil)).symm.trans h'
      exact ⟨hkv, hin, hrsp⟩
    · have he' := (stepRunsDecodedCommand s' w rest _ (hin ▸ hcons) rfl).symm.trans h'
      have hw : isFinal (decode w) = false := hfinal w (by simp [hcons])
      exact exec_agree hw (s := { s with inputs := rest }) (s' := { s' with inputs := rest }) hkv rfl hrsp he he'
    · cases (step_of_reset (hin ▸ hcons)).symm.trans h'
      exact ⟨rfl, rfl, rfl⟩
  obtain ⟨hkv', hin', hrsp'⟩ := hagree
  exact ⟨hkv', hin', hrsp', fun w hw => hfinal w (mem_inputs_of_step h hw)⟩

/-- Settles O30: steps keep the two states apart in `R`, `S` and `ACC` only. -/
theorem noTagRequestedNothingRevealed : Obligations.NoTagRequestedNothingRevealed := by
  intro n s s' t t' hkv hin hrsp hfinal h h'
  obtain ⟨hkv', hin', hrsp', -⟩ :=
    run_keeps_relation AgreeWithoutFinal.step ⟨hkv, hin, hrsp, hfinal⟩ h h'
  exact ⟨hrsp', hkv', hin'⟩

/-! ### Without a key -/

/-- An empty slot that answered nothing OK, and is not given a key of the legal length. -/
structure EmptyWithoutKey (s : State) : Prop where
  kv : s.kv = false
  noOk : ∀ rsp ∈ s.responses, rsp.status ≠ .ok
  noKey : ∀ w data, HostAct.command w ∈ s.inputs → decode w ≠ .key 32 data

/-- In an empty slot every command but a `KEY` of 32 bytes is refused and leaves it empty (R66, R89). -/
theorem exec_of_empty {i : Instr} {s t : State} (hs : s.kv = false) (hi : ∀ data, i ≠ .key 32 data)
    (h : exec i s = .next t) : t.kv = false ∧ answer s.kv i ≠ .ok := by
  have hbad : isKey i = true → WellFormed i = false := by
    intro hk
    obtain ⟨len, data, rfl⟩ := isKey_iff.1 hk
    refine Bool.eq_false_iff.2 fun hw => hi data ?_
    rw [(wellFormed_key_iff len data).1 hw]
  rw [exec_kv h, answer_eq, hs]
  cases hk : isKey i with
  | true => simp [hbad hk]
  | false => cases WellFormed i <;> simp

theorem EmptyWithoutKey.step {s t : State} (hq : EmptyWithoutKey s) (h : step s = .next t) : EmptyWithoutKey t := by
  obtain ⟨hkv, hok, hkey⟩ := hq
  have hempty : t.kv = false ∧ ∀ rsp ∈ t.responses, rsp.status ≠ .ok := by
    obtain ⟨-, rfl⟩ | ⟨w, rest, hcons, he⟩ | ⟨rest, -, rfl⟩ := step_cases h
    · exact ⟨hkv, hok⟩
    · have hw (data : Payload) : decode w ≠ .key 32 data := hkey w data (by simp [hcons])
      obtain ⟨hkv', hans⟩ := exec_of_empty (s := { s with inputs := rest }) hkv hw he
      obtain ⟨rsp, hr, hstatus, -⟩ := exec_response he
      rw [hr, List.forall_mem_append, List.forall_mem_singleton, hstatus]
      exact ⟨hkv', hok, hans⟩
    · exact ⟨rfl, List.forall_mem_nil _⟩
  obtain ⟨hkv', hok'⟩ := hempty
  exact ⟨hkv', hok', fun w data hw => hkey w data (mem_inputs_of_step h hw)⟩

/-- Settles O31: steps keep the empty slot and its refusals. -/
theorem noOkWithoutAKey : Obligations.NoOkWithoutAKey := by
  intro n s t hkv hok hkey h
  obtain ⟨hkv', hok', -⟩ := run_keeps EmptyWithoutKey.step ⟨hkv, hok, hkey⟩ h
  exact ⟨hkv', hok'⟩

/-! ### Presented commands -/

/-- A command reads and writes nothing of what the host does next (R9). -/
theorem exec_withInputs {i : Instr} {s t : State} (h : exec i s = .next t) (acts : List HostAct) :
    exec i { s with inputs := acts } = .next { t with inputs := acts } := by
  have heffect : okEffect i { s with inputs := acts } = { okEffect i s with inputs := acts } := by
    cases i <;> rfl
  obtain ⟨t', he, he'⟩ := exec_commutes (f := fun u => { u with inputs := acts }) rfl (fun _ _ => rfl)
    (fun _ => rfl) heffect
  cases he.symm.trans h
  exact he'

/-- The first of presented commands runs, and the others stay presented. -/
theorem step_present {c : Instr} {s u : State} (h : exec c s = .next u) (cs : List Instr) :
    step (s.present (c :: cs)) = .next (u.present cs) := by
  rw [step_present_cons, State.present, exec_withInputs h, State.present, exec_inputs h]

/-- A run over the first of presented commands answers each of them once, and the others stay presented. -/
theorem run_over_presented (cs rest : List Instr) (s : State) :
    ∃ (u : State) (rs : List Response), run cs.length (s.present (cs ++ rest)) = .next (u.present rest) ∧
      u.inputs = s.inputs ∧ u.responses = s.responses ++ rs ∧ rs.length = cs.length := by
  induction cs generalizing s with
  | nil => exact ⟨s, [], rfl, rfl, (List.append_nil _).symm, rfl⟩
  | cons c cs ih =>
    obtain ⟨v, hv⟩ := exec_total c s
    obtain ⟨rsp, hr, -⟩ := exec_response hv
    obtain ⟨u, rs, hrun, hin, hrs, hlen⟩ := ih v
    refine ⟨u, rsp :: rs, (run_of_step (step_present hv (cs ++ rest))).trans hrun, hin.trans (exec_inputs hv), ?_, ?_⟩
    · simp [hrs, hr]
    · simp [hlen]

/-- Settles O37: the run over the earlier commands, the step of `c`, and the run over the later ones. -/
theorem runAnswersInOrder : Obligations.RunAnswersInOrder := by
  intro pre c post s
  obtain ⟨u, rsPre, hpre, huin, hurs, hulen⟩ := run_over_presented pre (c :: post) s
  obtain ⟨v, hv⟩ := exec_total c u
  obtain ⟨rsp, hvrs, -⟩ := exec_response hv
  obtain ⟨t, rs, hpost, htin, htrs, hlen⟩ := run_over_presented post [] v
  have hc : run (pre.length + 1) (s.present (pre ++ c :: post)) = .next (v.present post) := by
    rw [run_add hpre, run_of_step (step_present hv post), run_zero]
  rw [List.append_nil, State.present_nil] at hpost
  refine ⟨u, v, t, rsp, rs, hpre, huin, hv, ?_, hvrs, (run_add hc).trans hpost, ?_, ?_, hlen⟩
  · simp [hurs, hulen]
  · rw [htin, exec_inputs hv, huin]
  · simp [htrs, hvrs]

end Sys2Proof.Machine
end

section
/-! PROOFS. Family 40_datapath_units.md, the multiplier: the reference reduction (R62), and the widths that hold every
value of a `BLOCK` (R7, R59). -/

namespace Sys2Proof.Machine

open Sys2Proof.Safety

/-! ### The reference reduction -/

/-- A slice that reaches to the top of a number is a quotient (R113). -/
theorem slice_top {v hi lo : Nat} (hlo : lo ≤ hi) (h : v < 2 ^ (hi + 1)) : slice v hi lo = v / 2 ^ lo := by
  have hsum : lo + (hi - lo + 1) = hi + 1 := by omega
  exact Nat.mod_eq_of_lt (Nat.div_lt_of_lt_mul (by rwa [← Nat.pow_add, hsum]))

/-- One fold of R62: the part above bit 129, times 5, on the part below. -/
def foldHigh (x : Nat) : Nat := 5 * (x / 2 ^ 130) + x % 2 ^ 130

/-- A fold drops `x / 2^130` times `P`. -/
theorem foldHigh_add_mul_prime (x : Nat) : foldHigh x + Config.prime * (x / 2 ^ 130) = x := by
  rw [foldHigh, prime_value]
  omega

theorem foldHigh_mod_prime (x : Nat) : foldHigh x % Config.prime = x % Config.prime := by
  rw [← Nat.add_mul_mod_self_left (foldHigh x) Config.prime (x / 2 ^ 130), foldHigh_add_mul_prime]

theorem foldHigh_eq_slices {x hi : Nat} (hhi : 130 ≤ hi) (h : x < 2 ^ (hi + 1)) :
    5 * slice x hi 130 + slice x 129 0 = foldHigh x := by
  rw [slice_top hhi h, slice_zero, foldHigh]

/-- A number of at most 259 bits folds into 132 bits. -/
theorem foldHigh_lt_of_lt_259 {x : Nat} (h : x < 2 ^ 259) : foldHigh x < 2 ^ 132 := by
  have hq : x / 2 ^ 130 < 2 ^ 129 := Nat.div_lt_of_lt_mul (by rwa [← Nat.pow_add])
  rw [foldHigh]
  omega

/-- A number of 132 bits folds to less than `2^130 + 15`. -/
theorem foldHigh_lt_of_lt_132 {x : Nat} (h : x < 2 ^ 132) : foldHigh x < 2 ^ 130 + 15 := by
  rw [foldHigh]
  omega

/-- From there the third fold leaves less than `2^130`. -/
theorem foldHigh_lt_of_lt_add {x : Nat} (h : x < 2 ^ 130 + 15) : foldHigh x < 2 ^ 130 := by
  rw [foldHigh]
  omega

/-- One conditional subtraction reduces a number below `2 * P`. -/
theorem sub_prime_eq_mod {w : Nat} (h : w < 2 ^ 130) :
    (if Config.prime ≤ w then w - Config.prime else w) = w % Config.prime := by
  rw [prime_value]
  split <;> omega

theorem refReduce_eq_mod {x : Nat} (h : x < 2 ^ 259) : refReduce x = x % Config.prime := by
  have hy := foldHigh_lt_of_lt_259 h
  have hz := foldHigh_lt_of_lt_132 hy
  have hw := foldHigh_lt_of_lt_add hz
  have hz' : foldHigh (foldHigh x) < 2 ^ 131 := by omega
  rw [← foldHigh_mod_prime x, ← foldHigh_mod_prime (foldHigh x), ← foldHigh_mod_prime (foldHigh (foldHigh x)),
    ← sub_prime_eq_mod hw]
  simp only [refReduce, foldHigh_eq_slices (by decide : 130 ≤ 258) h, foldHigh_eq_slices (by decide : 130 ≤ 131) hy,
    foldHigh_eq_slices (by decide : 130 ≤ 130) hz']

/-- Settles O32: every fold keeps the residue, three of them leave less than `2^130`, and a product of the full widths
has 259 bits. -/
theorem referenceReductionIsMulmod : Obligations.ReferenceReductionIsMulmod := by
  refine ⟨fun x => refReduce_eq_mod, fun a b ha hb => refReduce_eq_mod ?_⟩
  calc a * b
    _ < 2 ^ 131 * 2 ^ 128 := Nat.mul_lt_mul'' ha hb
    _ = 2 ^ 259 := (Nat.pow_add 2 131 128).symm

/-! ### Widths -/

/-- The value of a chunk of at most 16 bytes has 129 bits (R53, R59). -/
theorem blockValue_le (data : Payload) {n : Nat} (h : n ≤ 16) : blockValue data n ≤ 2 ^ 129 - 1 := by
  have hpow : 2 ^ (8 * n + 1) ≤ 2 ^ 129 := Nat.pow_le_pow_right (by decide) (by omega)
  exact Nat.le_sub_one_of_lt ((blockValue_lt data n).trans_le hpow)

/-- A clamped half is at most the mask (R14, R56). -/
theorem toNat_le_of_keyClamped {s : State} (h : KeyClamped s) : s.r.toNat ≤ Config.clampMask.toNat := by
  have hclamp : clamp s.r = s.r := by
    apply BitVec.eq_of_getLsbD_eq
    intro i hi
    have hbit : (s.r &&& ~~~Config.clampMask).getLsbD i = false := by
        rw [h]
        exact BitVec.getLsbD_zero
    rw [BitVec.getLsbD_and, BitVec.getLsbD_not, decide_eq_true hi, Bool.true_and] at hbit
    rw [clamp, BitVec.getLsbD_and]
    revert hbit
    cases s.r.getLsbD i <;> simp
  rw [← hclamp, clamp_toNat]
  exact Nat.and_le_right

theorem clampMask_toNat : Config.clampMask.toNat = 0x0ffffffc0ffffffc0ffffffc0fffffff := rfl

/-- `ACC + val` has 131 bits (R7, R59). -/
theorem blockSum_le {len : LenField} {s : State} (data : Payload) (hacc : AccCanonical s) (hlen : len.toNat ≤ 16) :
    blockSum len data s ≤ 0x5fffffffffffffffffffffffffffffff9 := by
  have hval := blockValue_le data hlen
  rw [AccCanonical, prime_value] at hacc
  rw [blockSum]
  omega

/-- Settles O26: each bound from those of its operands, which the invariants bound; the multiplier's result is narrowed
without loss. -/
theorem widthsHoldEveryValue : Obligations.WidthsHoldEveryValue := by
  rintro len data s ⟨hacc, hclamped, -⟩ hlen
  have hsum := blockSum_le data hacc hlen
  have hr := toNat_le_of_keyClamped hclamped
  rw [clampMask_toNat] at hr
  exact ⟨blockValue_le data hlen, hsum, hr.trans_lt (by decide), (Nat.mul_le_mul hsum hr).trans (by decide),
    mulmod_narrow _ _⟩

end Sys2Proof.Machine
end

section
/-! PROOFS. Families 43_finalize.md and 44_sequences.md: two `FINAL`s (R72), the sentinel (R83), the closed form (R80,
R82), and a `MAC` whose key has another length (R76). -/

namespace Sys2Proof.Machine

open Sys2Proof.Safety

/-! ### Two finals -/

/-- With `ACC = 0` the final sum is `S`, which fits the tag (R63, R72). -/
theorem finalTag_of_acc_eq_zero {s : State} (h : s.acc = 0) : finalTag s = s.s := by
  have hacc : s.acc.toNat = 0 := congrArg BitVec.toNat h
  apply BitVec.eq_of_toNat_eq
  rw [finalTag_toNat, hacc, Nat.zero_add]
  exact Nat.mod_eq_of_lt s.s.isLt

/-- Settles O44: the first `FINAL` leaves `KV` and `S`, and clears `ACC`. -/
theorem secondFinalReturnsS : Obligations.SecondFinalReturnsS := by
  intro d d' s hk
  refine ⟨_, _, finalTag s, exec_of_wellFormed rfl (.inr hk), exec_of_wellFormed rfl (.inr ?_), ?_⟩
  · rw [okEffect_kv, hk, Bool.or_true]
  · have htag : finalTag (okEffect (.final 0 d) s) = s.s := finalTag_of_acc_eq_zero rfl
    calc s.responses ++ [⟨.ok, true, finalTag s⟩] ++ [⟨.ok, true, finalTag (okEffect (.final 0 d) s)⟩]
      _ = s.responses ++ [⟨.ok, true, finalTag s⟩, ⟨.ok, true, s.s⟩] := by
        rw [htag, List.append_assoc, List.singleton_append]

/-! ### The sentinel -/

theorem chunkValue_nil : chunkValue [] = 1 := rfl

theorem chunkValue_cons (b : Byte) (c : List Byte) : chunkValue (b :: c) = b.toNat + 256 * chunkValue c := by
  rw [chunkValue, chunkValue, leInt_cons, List.length_cons, Nat.pow_succ']
  ring

theorem chunkValue_pos (c : List Byte) : 0 < chunkValue c :=
  (Nat.pow_pos (by decide)).trans_le (Nat.le_add_left _ _)

/-- A chunk can be read off its value, byte by byte, down to the sentinel (R83). -/
theorem chunkValue_injective {c c' : List Byte} (h : chunkValue c = chunkValue c') : c = c' := by
  induction c generalizing c' with
  | nil =>
    cases c' with
    | nil => rfl
    | cons b' c' =>
      have hpos := chunkValue_pos c'
      rw [chunkValue_nil, chunkValue_cons] at h
      omega
  | cons b c ih =>
    cases c' with
    | nil =>
      have hpos := chunkValue_pos c
      rw [chunkValue_nil, chunkValue_cons] at h
      omega
    | cons b' c' =>
      have hb := b.isLt
      have hb' := b'.isLt
      rw [chunkValue_cons, chunkValue_cons] at h
      have hbyte : b = b' := BitVec.eq_of_toNat_eq (by omega)
      have htail : c = c' := ih (by omega)
      rw [hbyte, htail]

/-- Settles O45: chunks with one value are equal, and trailing zero bytes change the length. -/
theorem sentinelSeparatesChunks : Obligations.SentinelSeparatesChunks := by
  refine ⟨fun _ _ => chunkValue_injective, fun c k hk h => ?_⟩
  have hlen := congrArg List.length (chunkValue_injective h)
  rw [List.length_append, List.length_replicate] at hlen
  omega

/-! ### The closed form -/

/-- The recurrence of R78 is the closed form of R80 modulo `P`, with the old accumulator as its leading term. -/
theorem absorb_modEq_closedForm (r acc : Nat) (ms : List Nat) :
    absorb r acc ms ≡ acc * r ^ ms.length + closedForm r ms [MOD Config.prime] := by
  induction ms generalizing acc with
  | nil => simp [absorb, closedForm, Nat.ModEq.refl]
  | cons m ms ih =>
    calc absorb r (r * (acc + m) % Config.prime) ms
      _ ≡ r * (acc + m) % Config.prime * r ^ ms.length + closedForm r ms [MOD Config.prime] := ih _
      _ ≡ r * (acc + m) * r ^ ms.length + closedForm r ms [MOD Config.prime] :=
        ((Nat.mod_modEq _ _).mul_right _).add_right _
      _ = acc * r ^ (m :: ms).length + closedForm r (m :: ms) := by
        rw [closedForm, List.length_cons, Nat.pow_succ]
        ring

theorem absorb_lt {r acc : Nat} (h : acc < Config.prime) (ms : List Nat) : absorb r acc ms < Config.prime := by
  induction ms generalizing acc with
  | nil => exact h
  | cons m ms ih => exact ih (Nat.mod_lt _ prime_pos)

theorem absorb_zero_eq_closedForm (r : Nat) (ms : List Nat) : absorb r 0 ms = closedForm r ms % Config.prime := by
  have hmod := absorb_modEq_closedForm r 0 ms
  rw [Nat.zero_mul, Nat.zero_add] at hmod
  rw [← Nat.mod_eq_of_lt (absorb_lt prime_pos ms)]
  exact hmod

/-- The `BLOCK` commands of a list of lengths and payloads. -/
def blockCommands (blocks : List (LenField × Payload)) : List Instr := blocks.map fun b => .block b.1 b.2

/-- The chunk values of those commands (R53). -/
def blockValues (blocks : List (LenField × Payload)) : List Nat := blocks.map fun b => blockValue b.2 b.1.toNat

/-- One `BLOCK` is one step of the recurrence (R68). -/
theorem foldedAcc_toNat_eq (len : LenField) (data : Payload) (s : State) :
    (foldedAcc len data s).toNat = s.r.toNat * (s.acc.toNat + blockValue data len.toNat) % Config.prime := by
  rw [foldedAcc, mulmod_narrow, mulmod, blockSum, Nat.mul_comm]

/-- `BLOCK`s run the recurrence over their chunk values, whatever their lengths, and otherwise only answer. -/
theorem okEffects_blockCommands (blocks : List (LenField × Payload)) (s : State) :
    ∃ acc : Residue, acc.toNat = absorb s.r.toNat s.acc.toNat (blockValues blocks) ∧
      okEffects (blockCommands blocks) s =
        { s with acc := acc, responses := s.responses ++ List.replicate blocks.length ⟨.ok, false, 0⟩ } := by
  induction blocks generalizing s with
  | nil => exact ⟨s.acc, rfl, by simp [blockCommands]⟩
  | cons b blocks ih =>
    obtain ⟨acc, hacc, heq⟩ := ih (okEffect (.block b.1 b.2) s)
    have hstep : (okEffect (.block b.1 b.2) s).acc = foldedAcc b.1 b.2 s := rfl
    refine ⟨acc, ?_, ?_⟩
    · rw [hacc, hstep, foldedAcc_toNat_eq]
      rfl
    · rw [blockCommands, List.map_cons, okEffects_cons, ← blockCommands, heq]
      simp [okEffect, State.respondOk, State.respond, State.setAcc, List.replicate_succ]

/-- Settles O42: all the commands are legal and find a key; the `BLOCK`s run the recurrence from 0, which is the closed
form, and `FINAL` adds `S`. -/
theorem blocksFollowClosedForm : Obligations.BlocksFollowClosedForm := by
  intro blocks s hk hzero hlen
  have hlegal : ∀ c ∈ blockCommands blocks ++ [.final 0 0], WellFormed c = true := by
    rw [List.forall_mem_append, List.forall_mem_singleton, blockCommands, List.forall_mem_map]
    exact ⟨fun b hb => (wellFormed_block_iff b.1 b.2).2 (hlen b hb), rfl⟩
  obtain ⟨acc, hacc, heq⟩ := okEffects_blockCommands blocks s
  have hstart : s.acc.toNat = 0 := congrArg BitVec.toNat hzero
  rw [hstart, absorb_zero_eq_closedForm] at hacc
  have hrun := run_present hlegal hk
  rw [okEffects_append, heq] at hrun
  refine ⟨_, finalTag { s with acc := acc }, hrun, rfl, ?_, rfl⟩
  rw [finalTag_toNat, hacc]
  rfl

/-! ### A `MAC` with a key of another length -/

/-- Without a key, each of a list of legal commands but `KEY` answers NoKey (R89). -/
theorem run_present_no_key {cs : List Instr} {s : State} (hw : ∀ c ∈ cs, WellFormed c = true)
    (hi : ∀ c ∈ cs, isKey c = false) (hs : s.kv = false) :
    run cs.length (s.present cs)
      = .next { s with responses := s.responses ++ List.replicate cs.length ⟨.noKey, false, 0⟩ } := by
  induction cs generalizing s with
  | nil => simp [run_zero, State.present_nil]
  | cons c cs ih =>
    obtain ⟨hc, hcs⟩ := List.forall_mem_cons.1 hw
    obtain ⟨hci, hcsi⟩ := List.forall_mem_cons.1 hi
    rw [List.length_cons, run_of_step (step_present (exec_of_no_key hci hc hs) cs),
      ih (s := s.respond .noKey false 0) hcs hcsi hs]
    simp [State.respond, List.replicate_succ]

theorem isKey_of_mem_tagCommands {msg : List Byte} {c : Instr} (h : c ∈ tagCommands msg) : isKey c = false := by
  obtain rfl | ⟨b, -, rfl⟩ | rfl : c = .start 0 0 ∨ (∃ b ∈ chunks msg, asmBlock b = c) ∨ c = .final 0 0 := by
    simpa [tagCommands] using h
  · rfl
  · rfl
  · rfl

theorem length_tagCommands (msg : List Byte) : (tagCommands msg).length = (chunks msg).length + 2 := by
  simp [tagCommands]

/-- No other length than 32 is declared as 32, not even one too long for the field (R42). -/
theorem not_wellFormed_asmKey {key : List Byte} (h : key.length ≠ 32) : WellFormed (asmKey key) = false := by
  have hdeclared : (declaredLen key.length).toNat ≠ 32 := by
    rw [declaredLen, BitVec.toNat_ofNat]
    omega
  simpa [asmKey, WellFormed] using hdeclared

/-- Settles O40: the `KEY` wipes, and the `TAG` then finds no key. -/
theorem macWithBadKeyAnswersNoKey : Obligations.MacWithBadKeyAnswersNoKey := by
  intro key msg s hlen
  have hkey := step_present (exec_of_bad_key (s := s) rfl (not_wellFormed_asmKey hlen)) (tagCommands msg)
  have htag := run_present_no_key (s := s.wipe.respond .invalidKeyLength false 0)
    (fun _ => wellFormed_of_mem_tagCommands (msg := msg)) (fun _ => isKey_of_mem_tagCommands) rfl
  refine ⟨_, (run_of_step hkey).trans htag, ?_, rfl, rfl, rfl, rfl⟩
  simp [length_tagCommands]

end Sys2Proof.Machine
end

section
/-! SUPPORT. One edge of the port machine (R98 to R103), by the phase it finds. -/

namespace Sys2Proof.Machine

open Sys2Proof.Safety
open Sys2Proof.Config (Latencies)

variable {L : Latencies} {p : PortState} {i : PortIn}

theorem PortState.accepts_eq_some_iff {w : CmdWord} :
    p.accepts i = some w ↔ i.rstN = true ∧ p.phase = .idle ∧ i.cmd = some w := by
  cases hp : p.phase <;> simp [PortState.accepts, PortState.cmdReady, hp]

/-- With a command in flight no other is accepted (R103). -/
theorem PortState.accepts_inFlight {rsp : Response} {n : Nat} (hp : p.phase = .inFlight rsp n) :
    p.accepts i = none := by
  simp [PortState.accepts, PortState.cmdReady, hp]

theorem PortState.edge_reset (L : Latencies) (p : PortState) (hr : i.rstN = false) : p.edge L i = PortState.reset :=
  if_pos hr

theorem PortState.edge_inReset (hr : i.rstN = true) (hp : p.phase = .inReset) :
    p.edge L i = { p with phase := .idle } := by
  simp [PortState.edge, hr, hp]

theorem PortState.edge_idle (hr : i.rstN = true) (hp : p.phase = .idle) (hc : i.cmd = none) : p.edge L i = p := by
  simp [PortState.edge, hr, hp, hc]

/-- Acceptance writes the whole effect and puts the response in flight (R31, R103; log entry 4). -/
theorem PortState.edge_accept {w : CmdWord} {t : State} (ha : p.accepts i = some w)
    (he : exec (decode w) p.core = .next t) :
    p.edge L i =
      { p with core := t, phase := .inFlight t.newest (latencyOf L (decode w) t.newest.status - 1) } := by
  obtain ⟨hr, hp, hc⟩ := PortState.accepts_eq_some_iff.1 ha
  simp [PortState.edge, PortState.accept, hr, hp, hc, he]

theorem PortState.edge_waiting {rsp : Response} {n : Nat} (hr : i.rstN = true) (hp : p.phase = .inFlight rsp (n + 1)) :
    p.edge L i = { p with phase := .inFlight rsp n } := by
  simp [PortState.edge, hr, hp]

theorem PortState.edge_held {rsp : Response} (hr : i.rstN = true) (hp : p.phase = .inFlight rsp 0)
    (hready : i.rspReady = false) : p.edge L i = p := by
  simp [PortState.edge, hr, hp, hready]

theorem PortState.edge_taken {rsp : Response} (hr : i.rstN = true) (hp : p.phase = .inFlight rsp 0)
    (hready : i.rspReady = true) : p.edge L i = { p with phase := .idle, taken := p.taken ++ [rsp] } := by
  simp [PortState.edge, hr, hp, hready]

/-- All that an edge out of reset can do (R98, R101, R102, R103). -/
theorem PortState.edge_cases (L : Latencies) (p : PortState) (hr : i.rstN = true) :
    (p.phase = .inReset ∧ p.edge L i = { p with phase := .idle }) ∨
    (p.phase = .idle ∧ i.cmd = none ∧ p.edge L i = p) ∨
    (∃ w t, p.accepts i = some w ∧ exec (decode w) p.core = .next t ∧ p.edge L i =
      { p with core := t, phase := .inFlight t.newest (latencyOf L (decode w) t.newest.status - 1) }) ∨
    (∃ rsp n, p.phase = .inFlight rsp (n + 1) ∧ p.edge L i = { p with phase := .inFlight rsp n }) ∨
    (∃ rsp, p.phase = .inFlight rsp 0 ∧ i.rspReady = false ∧ p.edge L i = p) ∨
    (∃ rsp, p.phase = .inFlight rsp 0 ∧ i.rspReady = true ∧
      p.edge L i = { p with phase := .idle, taken := p.taken ++ [rsp] }) := by
  cases hp : p.phase with
  | inReset => exact .inl ⟨rfl, edge_inReset hr hp⟩
  | idle =>
    cases hc : i.cmd with
    | none => exact .inr (.inl ⟨rfl, rfl, edge_idle hr hp hc⟩)
    | some w =>
      obtain ⟨t, he⟩ := exec_total (decode w) p.core
      have ha := accepts_eq_some_iff.2 ⟨hr, hp, hc⟩
      exact .inr (.inr (.inl ⟨w, t, ha, he, edge_accept ha he⟩))
  | inFlight rsp n =>
    cases n with
    | succ n => exact .inr (.inr (.inr (.inl ⟨rsp, n, rfl, edge_waiting hr hp⟩)))
    | zero =>
      cases hready : i.rspReady with
      | false => exact .inr (.inr (.inr (.inr (.inl ⟨rsp, rfl, rfl, edge_held hr hp hready⟩))))
      | true => exact .inr (.inr (.inr (.inr (.inr ⟨rsp, rfl, rfl, edge_taken hr hp hready⟩))))

/-- Without an acceptance or a reset the architectural state stays (R20). -/
theorem PortState.edge_core (hr : i.rstN = true) (ha : p.accepts i = none) : (p.edge L i).core = p.core := by
  obtain ⟨-, he⟩ | ⟨-, -, he⟩ | ⟨w, t, hw, -⟩ | ⟨rsp, n, -, he⟩ | ⟨rsp, -, -, he⟩ | ⟨rsp, -, -, he⟩ :=
    PortState.edge_cases L p hr
  · rw [he]
  · rw [he]
  · exact nomatch ha.symm.trans hw
  · rw [he]
  · rw [he]
  · rw [he]

theorem presented_eq_some_iff {rsp : Response} : p.presented = some rsp ↔ p.phase = .inFlight rsp 0 := by
  rcases p with ⟨core, _ | _ | ⟨rsp', _ | n⟩, taken⟩ <;> simp [PortState.presented]

theorem outstanding_eq_singleton_iff {rsp : Response} : outstanding p = [rsp] ↔ ∃ n, p.phase = .inFlight rsp n := by
  rcases p with ⟨core, _ | _ | ⟨rsp', n⟩, taken⟩ <;> simp [outstanding]

end Sys2Proof.Machine
end

section
/-! PROOFS. Family 70_reset_and_hazards.md, the ports: reset (R98, R99), the response handshake (R102), one command in
flight (R103), the latencies (R109), and the order of the responses (R33). -/

namespace Sys2Proof.Machine

open Sys2Proof.Safety
open Sys2Proof.Config (Latencies)

/-- Settles O46: the reset edge, then the edge that leaves the reset phase. -/
theorem resetEdgeAtThePorts : Obligations.ResetEdgeAtThePorts := by
  intro L p i j hi hj
  have hnext : PortState.reset.edge L j = { PortState.reset with phase := .idle } := PortState.edge_inReset hj rfl
  rw [PortState.edge_reset L p hi, hnext]
  exact ⟨rfl, rfl, rfl, rfl, by simp [PortState.accepts, PortState.cmdReady, PortState.reset], rfl, rfl, rfl⟩

/-- Settles O47: the two edges a presented response can meet. -/
theorem responseHeldUntilTaken : Obligations.ResponseHeldUntilTaken := by
  intro L p i rsp hpres hr
  have hp := presented_eq_some_iff.1 hpres
  refine ⟨congrArg (Option.map responseWord) hpres, PortState.edge_held hr hp, fun hready => ?_⟩
  rw [PortState.edge_taken hr hp hready]
  exact ⟨rfl, rfl, rfl⟩

/-- A response outstanding stays so until it is presented and taken (R102, R103). -/
theorem outstanding_edge {L : Latencies} {p : PortState} {i : PortIn} {rsp : Response} {n : Nat}
    (hp : p.phase = .inFlight rsp n) (hr : i.rstN = true) :
    outstanding (p.edge L i) = [rsp] ∨
      (p.presented = some rsp ∧ i.rspReady = true ∧ (p.edge L i).taken = p.taken ++ [rsp]) := by
  cases n with
  | succ n =>
    rw [PortState.edge_waiting hr hp]
    exact .inl rfl
  | zero =>
    cases hready : i.rspReady with
    | false =>
      rw [PortState.edge_held hr hp hready]
      exact .inl (outstanding_eq_singleton_iff.2 ⟨0, hp⟩)
    | true =>
      rw [PortState.edge_taken hr hp hready]
      exact .inr ⟨presented_eq_some_iff.2 hp, rfl, rfl⟩

/-- Settles O48: the accepting edge, and any edge with a response outstanding. -/
theorem oneCommandInFlight : Obligations.OneCommandInFlight := by
  refine ⟨fun L p i w ha => ?_, fun L p i rsp hout hr => ?_⟩
  · obtain ⟨t, he⟩ := exec_total (decode w) p.core
    refine ⟨t, he, ?_⟩
    rw [PortState.edge_accept ha he]
    exact ⟨rfl, rfl, rfl⟩
  · obtain ⟨n, hp⟩ := outstanding_eq_singleton_iff.1 hout
    have ha : p.accepts i = none := PortState.accepts_inFlight hp
    exact ⟨by simp [PortState.cmdReady, hp], ha, PortState.edge_core hr ha, outstanding_edge hp hr⟩

/-! ### Latencies -/

/-- Out of reset every edge brings a response in flight one edge nearer to its presentation. -/
theorem edges_countdown {L : Latencies} {p : PortState} {js : List PortIn} {rsp : Response} {n : Nat}
    (hjs : ∀ j ∈ js, j.rstN = true) (hp : p.phase = .inFlight rsp (n + js.length)) :
    (p.edges L js).phase = .inFlight rsp n := by
  induction js generalizing p with
  | nil => exact hp
  | cons j js ih =>
    obtain ⟨hj, hjs⟩ := List.forall_mem_cons.1 hjs
    have hedge : p.edge L j = { p with phase := .inFlight rsp (n + js.length) } := PortState.edge_waiting hj hp
    exact ih (p := p.edge L j) hjs (by rw [hedge])

/-- Settles O49: the accepting edge sets the count to the latency less 1, and each later edge takes 1 off it. -/
theorem latencyIsExact : Obligations.LatencyIsExact := by
  intro L p i w js t _ ha hjs he
  have hphase : (p.edge L i).phase = .inFlight t.newest (latencyOf L (decode w) t.newest.status - 1) := by
    rw [PortState.edge_accept ha he]
  constructor
  · intro hlt
    obtain ⟨n, hn⟩ : ∃ n, latencyOf L (decode w) t.newest.status - 1 = n + 1 + js.length :=
      ⟨latencyOf L (decode w) t.newest.status - 2 - js.length, by omega⟩
    have hlate := edges_countdown (L := L) hjs (hn ▸ hphase)
    rw [PortState.presented, hlate]
  · intro heq
    have hn : latencyOf L (decode w) t.newest.status - 1 = 0 + js.length := by omega
    exact presented_eq_some_iff.2 (edges_countdown hjs (hn ▸ hphase))

/-! ### Order of the responses -/

theorem edge_keeps_portsInOrder {L : Latencies} {p : PortState} {i : PortIn} (hin : PortsInOrder p)
    (hr : i.rstN = true) : PortsInOrder (p.edge L i) := by
  rw [PortsInOrder] at hin ⊢
  obtain ⟨hp, he⟩ | ⟨-, -, he⟩ | ⟨w, t, ha, hexec, he⟩ | ⟨rsp, n, hp, he⟩ | ⟨rsp, -, -, he⟩ | ⟨rsp, hp, -, he⟩ :=
    PortState.edge_cases L p hr
  · simpa [he, outstanding, hp] using hin
  · rwa [he]
  · obtain ⟨-, hp, -⟩ := PortState.accepts_eq_some_iff.1 ha
    have hnone : p.core.responses = p.taken := by simpa [outstanding, hp] using hin
    simpa [he, outstanding, hnone] using (exec_newest hexec).1
  · simpa [he, outstanding, hp] using hin
  · rwa [he]
  · simpa [he, outstanding, hp] using hin

/-- Settles O50: a response enters at the end when its command is accepted, and leaves for the end of those taken. -/
theorem portsKeepResponseOrder : Obligations.PortsKeepResponseOrder := by
  refine ⟨rfl, fun L p i hin => ?_⟩
  cases hr : i.rstN with
  | false =>
    rw [PortState.edge_reset L p hr]
    rfl
  | true => exact edge_keeps_portsInOrder hin hr

end Sys2Proof.Machine
end

section
/-! PROOFS. Family 70_reset_and_hazards.md: the ports refine the transaction level (00_scope.md R9, R103). -/

namespace Sys2Proof.Machine

open Sys2Proof.Config (Latencies)

/-- What an edge is at the transaction level leads a run to the state the edge leaves. -/
theorem run_act (L : Latencies) (p : PortState) (i : PortIn) (rest : List HostAct) :
    run (p.act i).length { p.core with inputs := p.act i ++ rest }
      = .next { (p.edge L i).core with inputs := rest } := by
  cases hr : i.rstN with
  | false =>
    have hact : p.act i = [.reset] := if_pos hr
    rw [hact, PortState.edge_reset L p hr]
    exact run_of_step (step_of_reset (.inl rfl))
  | true =>
    cases ha : p.accepts i with
    | none =>
      have hact : p.act i = [] := by simp [PortState.act, hr, ha]
      rw [hact, PortState.edge_core hr ha]
      rfl
    | some w =>
      have hact : p.act i = [.command w] := by simp [PortState.act, hr, ha]
      obtain ⟨t, he⟩ := exec_total (decode w) p.core
      rw [hact, PortState.edge_accept ha he]
      exact run_of_step (exec_withInputs he rest)

/-- The ports list no host acts of their own. -/
theorem edge_inputs {L : Latencies} {p : PortState} {i : PortIn} (hin : p.core.inputs = []) :
    (p.edge L i).core.inputs = [] := by
  cases hr : i.rstN with
  | false =>
    rw [PortState.edge_reset L p hr]
    rfl
  | true =>
    cases ha : p.accepts i with
    | none => rwa [PortState.edge_core hr ha]
    | some w =>
      obtain ⟨t, he⟩ := exec_total (decode w) p.core
      rw [PortState.edge_accept ha he]
      exact (exec_inputs he).trans hin

/-- Settles O51: `run_act` for each edge, one after another. -/
theorem portsRefineTransactions : Obligations.PortsRefineTransactions := by
  intro L is p hin
  induction is generalizing p with
  | nil =>
    have hcore : { p.core with inputs := [] } = p.core := by rw [← hin]
    exact congrArg Host.Outcome.next hcore
  | cons i is ih =>
    rw [PortState.acts, List.length_append, run_add (run_act L p i _)]
    exact ih (p.edge L i) (edge_inputs hin)

end Sys2Proof.Machine
end

section
/-! PROOFS. Family 70_reset_and_hazards.md: the timing of the ports depends on no secret and on no payload (R110). -/

namespace Sys2Proof.Machine

open Sys2Proof.Safety
open Sys2Proof.Config (Latencies)

/-! ### Commands alike but for their payload -/

/-- A command with another payload. -/
def withData (d : Payload) : Instr → Instr
  | .start len _ => .start len d
  | .key len _ => .key len d
  | .block len _ => .block len d
  | .final len _ => .final len d

/-- A part of a part of a word. -/
theorem extractLsb'_extractLsb' {n : Nat} (w : BitVec n) (a b : Nat) {len m : Nat} (h : b + m ≤ len) :
    (w.extractLsb' a len).extractLsb' b m = w.extractLsb' (a + b) m := by
  apply BitVec.eq_of_getLsbD_eq
  intro j hj
  have hlt : b + j < len := by omega
  simp [hj, hlt, Nat.add_assoc]

theorem opField_eq_header (w : CmdWord) : opField w = (header w).extractLsb' 6 2 :=
  (extractLsb'_extractLsb' w 256 6 (by decide)).symm

theorem lenField_eq_header (w : CmdWord) : lenField w = (header w).extractLsb' 0 6 :=
  (extractLsb'_extractLsb' w 256 0 (by decide)).symm

/-- Words with one header decode to commands alike but for their payload (R38, R40). -/
theorem decode_of_header_eq {w w' : CmdWord} (h : header w = header w') :
    decode w' = withData (dataField w') (decode w) := by
  have hop : opField w' = opField w := by rw [opField_eq_header, opField_eq_header, h]
  have hlen : lenField w' = lenField w := by rw [lenField_eq_header, lenField_eq_header, h]
  rw [decode, decode, hop, hlen]
  split
  · rfl
  split
  · rfl
  split
  · rfl
  · rfl

theorem answer_withData (kv : Bool) (d : Payload) (i : Instr) : answer kv (withData d i) = answer kv i := by
  cases i <;> rfl

theorem isKey_withData (d : Payload) (i : Instr) : isKey (withData d i) = isKey i := by
  cases i <;> rfl

theorem wellFormed_withData (d : Payload) (i : Instr) : WellFormed (withData d i) = WellFormed i := by
  cases i <;> rfl

theorem latencyOf_withData (L : Latencies) (d : Payload) (i : Instr) (status : Status) :
    latencyOf L (withData d i) status = latencyOf L i status := by
  cases i <;> rfl

/-! ### Ports alike but for secrets -/

/-- What the timing may depend on: `KV`, and the phase but for the response in flight (R110). -/
structure SameTiming (p p' : PortState) : Prop where
  kv : p.core.kv = p'.core.kv
  phase : timingOf p.phase = timingOf p'.phase

/-- Inputs alike but for the payload of the command word. -/
abbrev SameDrive (i i' : PortIn) : Prop :=
  i.rstN = i'.rstN ∧ i.rspReady = i'.rspReady ∧ i.cmd.map header = i'.cmd.map header

theorem phases_of_timingOf_eq {a b : Phase} (h : timingOf a = timingOf b) :
    (a = .inReset ∧ b = .inReset) ∨ (a = .idle ∧ b = .idle) ∨
    ∃ rsp rsp' n, a = .inFlight rsp n ∧ b = .inFlight rsp' n := by
  cases a with
  | inReset =>
    cases b with
    | inReset => exact .inl ⟨rfl, rfl⟩
    | idle => cases h
    | inFlight rsp' n' => cases h
  | idle =>
    cases b with
    | inReset => cases h
    | idle => exact .inr (.inl ⟨rfl, rfl⟩)
    | inFlight rsp' n' => cases h
  | inFlight rsp n =>
    cases b with
    | inReset => cases h
    | idle => cases h
    | inFlight rsp' n' =>
      cases h
      exact .inr (.inr ⟨rsp, rsp', n, rfl, rfl⟩)

/-- Both handshake outputs of the block are read off the timing. -/
theorem SameTiming.outputs {p p' : PortState} (h : SameTiming p p') :
    p.cmdReady = p'.cmdReady ∧ p.rspValid = p'.rspValid := by
  obtain ⟨hp, hp'⟩ | ⟨hp, hp'⟩ | ⟨rsp, rsp', n, hp, hp'⟩ := phases_of_timingOf_eq h.phase
  · simp [PortState.cmdReady, PortState.rspValid, PortState.presented, hp, hp']
  · simp [PortState.cmdReady, PortState.rspValid, PortState.presented, hp, hp']
  · cases n <;> simp [PortState.cmdReady, PortState.rspValid, PortState.presented, hp, hp']

/-- Accepting commands alike but for the payload: the status and the latency are one, and so is `KV` afterwards (R84,
R109). -/
theorem SameTiming.accept {L : Latencies} {p p' : PortState} {i i' : PortIn} {w w' : CmdWord} (h : SameTiming p p')
    (hw : header w = header w') (ha : p.accepts i = some w) (ha' : p'.accepts i' = some w') :
    SameTiming (p.edge L i) (p'.edge L i') := by
  obtain ⟨t, he⟩ := exec_total (decode w) p.core
  obtain ⟨t', he'⟩ := exec_total (decode w') p'.core
  have hkv : t.kv = t'.kv := by
    rw [exec_kv he, exec_kv he', decode_of_header_eq hw, isKey_withData, wellFormed_withData, h.kv]
  have hstatus : t.newest.status = t'.newest.status := by
    rw [(exec_newest he).2, (exec_newest he').2, decode_of_header_eq hw, answer_withData, h.kv]
  have hlat : latencyOf L (decode w) t.newest.status = latencyOf L (decode w') t'.newest.status := by
    rw [decode_of_header_eq hw, latencyOf_withData, hstatus]
  rw [PortState.edge_accept ha he, PortState.edge_accept ha' he', hlat]
  exact ⟨hkv, rfl⟩

theorem SameTiming.edge {L : Latencies} {p p' : PortState} {i i' : PortIn} (h : SameTiming p p')
    (hi : SameDrive i i') : SameTiming (p.edge L i) (p'.edge L i') := by
  obtain ⟨hrst, hready, hcmd⟩ := hi
  cases hr : i.rstN with
  | false =>
    rw [PortState.edge_reset L p hr, PortState.edge_reset L p' (hrst ▸ hr)]
    exact ⟨rfl, rfl⟩
  | true =>
    have hr' : i'.rstN = true := hrst ▸ hr
    obtain ⟨hp, hp'⟩ | ⟨hp, hp'⟩ | ⟨rsp, rsp', n, hp, hp'⟩ := phases_of_timingOf_eq h.phase
    · rw [PortState.edge_inReset hr hp, PortState.edge_inReset hr' hp']
      exact ⟨h.kv, rfl⟩
    · cases hc : i.cmd with
      | none =>
        have hc' : i'.cmd = none := by simpa [hc] using hcmd.symm
        rwa [PortState.edge_idle hr hp hc, PortState.edge_idle hr' hp' hc']
      | some w =>
        obtain ⟨w', hc', hw⟩ : ∃ w', i'.cmd = some w' ∧ header w' = header w := by simpa [hc] using hcmd.symm
        exact h.accept hw.symm (PortState.accepts_eq_some_iff.2 ⟨hr, hp, hc⟩)
          (PortState.accepts_eq_some_iff.2 ⟨hr', hp', hc'⟩)
    · cases n with
      | succ n =>
        rw [PortState.edge_waiting hr hp, PortState.edge_waiting hr' hp']
        exact ⟨h.kv, rfl⟩
      | zero =>
        cases hy : i.rspReady with
        | false => rwa [PortState.edge_held hr hp hy, PortState.edge_held hr' hp' (hready ▸ hy)]
        | true =>
          rw [PortState.edge_taken hr hp hy, PortState.edge_taken hr' hp' (hready ▸ hy)]
          exact ⟨h.kv, rfl⟩

theorem SameTiming.edges {L : Latencies} {p p' : PortState} {is : List (PortIn × PortIn)} (h : SameTiming p p')
    (his : ∀ ij ∈ is, SameDrive ij.1 ij.2) : SameTiming (p.edges L (is.map (·.1))) (p'.edges L (is.map (·.2))) := by
  induction is generalizing p p' with
  | nil => exact h
  | cons ij is ih =>
    obtain ⟨hij, his⟩ := List.forall_mem_cons.1 his
    exact ih (h.edge hij) his

/-- Settles O52: every edge keeps the timing alike, and the outputs are read off it. -/
theorem timingIgnoresSecrets : Obligations.TimingIgnoresSecrets := by
  intro L p p' is hkv hphase his
  have h : SameTiming (p.edges L (is.map (·.1))) (p'.edges L (is.map (·.2))) := SameTiming.edges ⟨hkv, hphase⟩ his
  exact ⟨h.outputs.1, h.outputs.2, h.kv⟩

end Sys2Proof.Machine
end
